-- ==== Sys2Proof/Word.lean ====
section
/-! DEFINITION. The plain types that name the CT-4's numbered things. -/

namespace Sys2Proof

/-- One byte of a link frame or of a transport message (R167, R179). -/
abbrev Byte := BitVec 8

/-- A Transport Port and its transport, TP0 to TP3. -/
abbrev PortId := Fin 4

/-- A slot of the Deposit Table, 0 to 127 (R18). -/
abbrev Slot := Fin 128

/-- A currency set, 0 to 3. -/
abbrev SetId := Fin 4

/-- A denomination index, 0 to 11. -/
abbrev DenomIndex := Fin 12

/-- A pocket of one transport, P0 to P7: P0 return, P1 suspect, P2 to P7 sort pockets. -/
abbrev Pocket := Fin 8

/-- One of the 24 sort pockets of the hall (R84), counted in ascending transport and pocket order:
transport `t`, pocket `P(k + 2)` is place `6 t + k`. -/
abbrev Place := Fin 24

/-- A deposit reference as it stands in a message, 32 bits; 0 names no deposit (R19). -/
abbrev Reference := BitVec 32

end Sys2Proof
end

