-- ==== Sys2Proof/Syntax.lean ====
section
/-! DEFINITION. The commands of the CT-4, one constructor per row of spec/opcode_table.json. -/

namespace Sys2Proof

/-- What start-up follows (R160 step 1). -/
inductive StartCause where
  | powerUp       -- supply has come up
  | resetRelease  -- the reset line has been released
  deriving DecidableEq, Repr

/-- The commands. A host request carries its body as the bytes of the frame (R177); a transport message
carries its port and its fields as R179 lays them out; an expiry names the timer. -/
inductive Instr where
  -- host requests on records (R31 to R47, R141)
  | declare (body : List Byte)
  | amend (body : List Byte)
  | cancel (body : List Byte)
  | lookUp (body : List Byte)
  | list (body : List Byte)
  | settle (body : List Byte)
  | hold (body : List Byte)
  | release (body : List Byte)
  | sealRecord (body : List Byte)
  | retire (body : List Byte)
  -- host requests on bundles (R125, R131, R132)
  | takeBundle (body : List Byte)
  | lookBundle (body : List Byte)
  | flushPooled (body : List Byte)
  -- host requests on the configuration (R4 to R17)
  | setDenomination (body : List Byte)
  | setLimits (body : List Byte)
  | setPaceCurve (body : List Byte)
  | readConfiguration (body : List Byte)
  | commitConfiguration (body : List Byte)
  | initializeStore (body : List Byte)
  -- host requests on the part (R67, R162, R175)
  | readStatus (body : List Byte)
  | clearCauses (body : List Byte)
  | releaseTransport (body : List Byte)
  -- frames of the Supervisor Link (R168, R170)
  /-- A poll of which `clocked` whole bytes were clocked, the first one 0x00. -/
  | poll (clocked : Nat)
  /-- A request frame: the whole bytes received, the request code first. -/
  | requestFrame (frame : List Byte)
  -- transport messages (R49, R179)
  | hello (port : PortId) (presence : Byte)
  | feedStart (port : PortId) (reference : Reference)
  | noteReport (port : PortId) (seq index fitness verdict : Byte)
  | stacked (port : PortId) (seq pocket : Byte)
  | jam (port : PortId)
  | jamCleared (port : PortId)
  | feedEnd (port : PortId) (count : BitVec 16)
  | pocketCleared (port : PortId) (pocket : Byte)
  /-- A message as the line delivered it: type byte, counted body, and whether any character of it had a
  parity or stop-bit error. -/
  | discardedMessage (port : PortId) (type : Byte) (body : List Byte) (lineError : Bool)
  -- timer expiries (R105, R44, R156)
  | flightExpiry (port : PortId) (seq : Byte)
  | idleExpiry (slot : Slot)
  | holdUpExpiry
  -- lines and supply (R154, R155, R158 to R160)
  | powerWarningAsserted
  | powerWarningDeasserted
  | resetLineAsserted
  | powerFailure
  | startUp (cause : StartCause)
  deriving DecidableEq, Repr

end Sys2Proof
end

