-- ==== Sys2Proof/Decode.lean ====
section
/-! DEFINITION. Reading bytes: the words of the command table, and the messages of a transport line. -/

namespace Sys2Proof

/-- No row of spec/opcode_table.json has bits, so no word spells a command. -/
def decodeTableWord (_nbits _w : Nat) : Option Instr :=
  none

/-- R167: a number sent most significant byte first. -/
def natOf (bytes : List Byte) : Nat :=
  bytes.foldl (fun n b => n * 256 + b.toNat) 0

/-- R167: the `n` low bytes of a number, most significant first. -/
def bytesOf : Nat → Nat → List Byte
  | 0, _ => []
  | n + 1, v => BitVec.ofNat 8 (v / 256 ^ n) :: bytesOf n v

/-! ### Messages on a transport line (R49, R179) -/

/-- R179: the one body length of each message type, in both directions; `none` for a byte that is no type. -/
def bodyLengthOf (type : Byte) : Option Nat :=
  match type.toNat with
  | 0x10 => some 1
  | 0x11 => some 4
  | 0x12 => some 4
  | 0x13 => some 2
  | 0x14 => some 0
  | 0x15 => some 0
  | 0x16 => some 2
  | 0x17 => some 1
  | 0x20 => some 2
  | 0x21 => some 5
  | 0x22 => some 1
  | 0x23 => some 2
  | 0x24 => some 5
  | 0x25 => some 1
  | 0x26 => some 0
  | 0x27 => some 2
  | 0x28 => some 10
  | 0x29 => some 1
  | _ => none

/-- R179: a message on the line: a type byte, a length byte and the body. -/
def messageFrame (type : Byte) (body : List Byte) : List Byte :=
  type :: BitVec.ofNat 8 body.length :: body

/-- R49: the next message of a line, as its type byte and as many body bytes as its length byte gives, with the bytes
behind it; `none` while its last byte has not arrived. -/
def nextFrame : List Byte → Option (Byte × List Byte × List Byte)
  | [] | [_] => none
  | type :: len :: rest =>
    if len.toNat ≤ rest.length then some (type, rest.take len.toNat, rest.drop len.toNat) else none

/-- R180: the fields of a Note Report that have a meaning: index 0 to 11 or NONE 0x0F, fitness at most 1,
verdict at most 2. -/
def noteFieldsValid (index fitness verdict : Byte) : Bool :=
  (index.toNat < 12 || index = 0x0F#8) && fitness.toNat ≤ 1 && verdict.toNat ≤ 2

/-- R49, R179, R180: the message that a type byte and a counted body spell on a port. `none` is a type that
is not one of the eight, a body of the wrong length, or a field with no meaning. -/
def readMessage (port : PortId) (type : Byte) (body : List Byte) : Option Instr :=
  match type.toNat with
  | 0x10 => match body with
    | [presence] => some (.hello port presence)
    | _ => none
  | 0x11 => match body with
    | [a, b, c, d] => some (.feedStart port (BitVec.ofNat 32 (natOf [a, b, c, d])))
    | _ => none
  | 0x12 => match body with
    | [seq, index, fitness, verdict] =>
      if noteFieldsValid index fitness verdict then some (.noteReport port seq index fitness verdict) else none
    | _ => none
  | 0x13 => match body with
    | [seq, pocket] => if pocket.toNat < 8 then some (.stacked port seq pocket) else none
    | _ => none
  | 0x14 => match body with
    | [] => some (.jam port)
    | _ => none
  | 0x15 => match body with
    | [] => some (.jamCleared port)
    | _ => none
  | 0x16 => match body with
    | [a, b] => some (.feedEnd port (BitVec.ofNat 16 (natOf [a, b])))
    | _ => none
  | 0x17 => match body with
    | [pocket] => if pocket.toNat < 8 then some (.pocketCleared port pocket) else none
    | _ => none
  | _ => none

/-- R49: the next message of a port's line as the command that it is, where every byte arrived without a line error,
with the bytes behind it. What is not one of the eight messages is a discarded one. -/
def readFrame (port : PortId) (line : List Byte) : Option (Instr × List Byte) :=
  (nextFrame line).map fun (type, body, rest) =>
    ((readMessage port type body).getD (.discardedMessage port type body false), rest)

/-- R179: the type byte and the body that a transport sends for a message; `none` for a command that is not
one of the eight transport messages. -/
def messageBytes : Instr → Option (PortId × Byte × List Byte)
  | .hello p presence => some (p, 0x10#8, [presence])
  | .feedStart p reference => some (p, 0x11#8, bytesOf 4 reference.toNat)
  | .noteReport p seq index fitness verdict => some (p, 0x12#8, [seq, index, fitness, verdict])
  | .stacked p seq pocket => some (p, 0x13#8, [seq, pocket])
  | .jam p => some (p, 0x14#8, [])
  | .jamCleared p => some (p, 0x15#8, [])
  | .feedEnd p count => some (p, 0x16#8, bytesOf 2 count.toNat)
  | .pocketCleared p pocket => some (p, 0x17#8, [pocket])
  | .declare _ | .amend _ | .cancel _ | .lookUp _ | .list _ | .settle _ | .hold _ | .release _ | .sealRecord _
  | .retire _ | .takeBundle _ | .lookBundle _ | .flushPooled _ | .setDenomination _ | .setLimits _
  | .setPaceCurve _ | .readConfiguration _ | .commitConfiguration _ | .initializeStore _ | .readStatus _
  | .clearCauses _ | .releaseTransport _ | .poll _ | .requestFrame _ | .discardedMessage _ _ _ _
  | .flightExpiry _ _ | .idleExpiry _ | .holdUpExpiry | .powerWarningAsserted | .powerWarningDeasserted
  | .resetLineAsserted | .powerFailure | .startUp _ => none

/-- R179: the port and the bytes of a transport message on its line. -/
def lineBytes (c : Instr) : Option (PortId × List Byte) :=
  (messageBytes c).map fun (p, type, body) => (p, messageFrame type body)

end Sys2Proof
end

