-- ==== Sys2Proof/Config.lean ====
section
/-! DEFINITION. The bounds that the CT-4 fixes for every part.

The manual leaves no value of a result open, so this file holds no opaque constant; the conventions
that the model fixes are in notes/assumptions. -/

namespace Sys2Proof.Config

/-- Entries that a port's window holds (R72). -/
abbrev windowCapacity : Nat := 8

/-- Bundles that the Collection Queue holds (R129). -/
abbrev queueCapacity : Nat := 16

/-- Contributions that a bundle holds (R85, R118). -/
abbrev contributionCapacity : Nat := 8

/-- Limit of the counts of notes and of the tally cells (R20, R54). -/
abbrev countLimit : Nat := 65535

/-- Consecutive jams at which a feed is aborted (R110). -/
abbrev jamLimit : Nat := 3

/-- Confirmed notes that forgive a feed's jams (R100). -/
abbrev forgivenessRun : Nat := 200

/-- Refused references that lock a port (R58). -/
abbrev refusedLimit : Nat := 5

/-- Feeds aborted at the jam limit that lock a port (R65). -/
abbrev abortedLimit : Nat := 2

/-- Reopens that a record may use (R41). -/
abbrev reopenLimit : Nat := 3

/-- Backlog at which the Pace Governor stops counting (R134). -/
abbrev backlogLimit : Nat := 16

/-- Largest face value (R1). -/
abbrev faceLimit : Nat := 100000000

/-- Entries of a declared breakdown (R31). -/
abbrev breakdownLimit : Nat := 12

/-- Largest body of a request or response (R169, R170). -/
abbrev bodyLimit : Nat := 250

/-- Entries of one List response (R35). -/
abbrev listLimit : Nat := 16

/-- Milliseconds of one minute of the idle limit (R7). -/
abbrev minute : Nat := 60000

end Sys2Proof.Config
end

