-- ==== Sys2Proof/Machine/State.lean ====
section
/-! DEFINITION. Everything the CT-4 keeps, as plain data, and the state right after reset. -/

namespace Sys2Proof.Machine

/-! ### Configuration (chapter 1). Values are kept as the store holds them, in the widths of their images
(R177), because a damaged store may hold any byte (R13, R14). -/

/-- One denomination entry (1.1). Dispositions: SORT 0, RETURN 1; COMBINE: clear 0, set 1 (R177). -/
structure DenomEntry where
  face : BitVec 32
  strap : Byte
  fitDisposition : Byte
  unfitDisposition : Byte
  combine : Byte
  deriving DecidableEq, Repr

/-- The five general limits (R7, R8): flight limit in ms, idle limit in minutes, hold-up time in ms, and the
two stop thresholds in notes. -/
structure Limits where
  flight : BitVec 16
  idle : Byte
  holdUp : Byte
  suspectStop : BitVec 16
  returnStop : BitVec 16
  deriving DecidableEq, Repr

/-- The pace curve's points 0 to 8 and the hysteresis H (R7, R10). -/
structure Curve where
  points : Vector (BitVec 16) 9
  hysteresis : Byte
  deriving DecidableEq, Repr

/-- The whole configuration. Entry `i` of set `k` is `entries[12 k + i]`, the order of R181. -/
structure Configuration where
  entries : Vector DenomEntry 48
  limits : Limits
  curve : Curve
  deriving DecidableEq, Repr

/-! ### Deposit records (chapter 2) -/

/-- SEGREGATED or POOLED (R21). -/
inductive CustodyMode where
  | segregated
  | pooled
  deriving DecidableEq, Repr

/-- The six record states (2.3); FREE is an empty slot. -/
inductive RecordState where
  | declared
  | counting
  | balanced
  | discrepant
  | held
  | sealed
  deriving DecidableEq, Repr

/-- The eight hold reasons (2.6). -/
inductive HoldReason where
  | host
  | jamLimit
  | idle
  | power
  | feedMismatch
  | custody
  | reopenLimit
  | transport
  deriving DecidableEq, Repr

/-- A set of hold reasons (R20). -/
structure HoldReasons where
  host : Bool := false
  jamLimit : Bool := false
  idle : Bool := false
  power : Bool := false
  feedMismatch : Bool := false
  custody : Bool := false
  reopenLimit : Bool := false
  transport : Bool := false
  deriving DecidableEq, Repr

/-- The record flags (R29). -/
structure RecordFlags where
  cellLimit : Bool := false
  saturated : Bool := false
  voidedNotes : Bool := false
  deriving DecidableEq, Repr

/-- The three tally cells of one denomination index (R20). -/
structure TallyCell where
  fit : Nat := 0
  unfit : Nat := 0
  suspect : Nat := 0
  deriving DecidableEq, Repr

/-- One entry of a declared breakdown (R20). -/
structure BreakdownEntry where
  index : DenomIndex
  count : Nat
  deriving DecidableEq, Repr

/-- The five outcomes of a settlement (R147). -/
inductive SettleOutcome where
  | exact
  | mixed
  | over
  | shortBySuspect
  | short
  deriving DecidableEq, Repr

/-- One entry of a mismatch list (R146). -/
structure Mismatch where
  index : DenomIndex
  difference : Int
  deriving DecidableEq, Repr

/-- A settlement result (R149). The mismatch list is absent when no breakdown was held. -/
structure Settlement where
  outcome : SettleOutcome
  counted : Nat
  suspect : Nat
  difference : Int
  suspectMark : Bool
  mismatches : Option (List Mismatch)
  deriving DecidableEq, Repr

/-- A deposit record (R20). The breakdown's empty list is its absence. The idle timer is `none` when
stopped, and otherwise the clock value at which it started (R43). -/
structure DepositRecord where
  reference : Reference
  customer : BitVec 24
  currency : SetId
  custody : CustodyMode
  state : RecordState
  declaredTotal : Nat
  breakdown : List BreakdownEntry
  cells : Vector TallyCell 12
  unrecognized : Nat
  returned : Nat
  lost : Nat
  collected : Nat
  voided : Nat
  feeding : Vector Bool 4
  pending : Nat
  reopens : Nat
  holds : HoldReasons
  flags : RecordFlags
  result : Option Settlement
  idleSince : Option Nat
  deriving DecidableEq, Repr

/-! ### Bundles and bindings (chapters 4 and 6) -/

/-- The fitness of a note (R72). -/
inductive Fitness where
  | fit
  | unfit
  deriving DecidableEq, Repr

/-- The fitness of a bundle key (R83). -/
inductive BundleFitness where
  | fit
  | unfit
  | any
  deriving DecidableEq, Repr

/-- The custody group of a bundle key (R21, R83). -/
inductive CustodyGroup where
  | slot (i : Slot)
  | pool
  deriving DecidableEq, Repr

/-- The bundle key (R83). -/
structure BundleKey where
  currency : SetId
  index : DenomIndex
  fitness : BundleFitness
  group : CustodyGroup
  deriving DecidableEq, Repr

/-- A deposit's share of a bundle (R118). -/
structure Contribution where
  slot : Slot
  reference : Reference
  fit : Nat
  unfit : Nat
  reserved : Nat
  deriving DecidableEq, Repr

/-- The states that an UNCONFIRMED bundle may have come from (R117, R139). -/
inductive PriorState where
  | opened
  | filled
  | closing
  | completeWaiting
  | strapping
  deriving DecidableEq, Repr

/-- The seven bundle states (6.2); the prior state is present exactly in UNCONFIRMED. -/
inductive BundleState where
  | opened
  | filled
  | closing
  | completeWaiting
  | strapping
  | collectable
  | unconfirmed (prior : PriorState)
  deriving DecidableEq, Repr

/-- A bundle record (R117). Its transport and pocket are those of `place`. -/
structure Bundle where
  key : BundleKey
  place : Place
  strap : Nat
  stacked : Nat
  inFlight : Nat
  contributions : List Contribution
  short : Bool
  tainted : Bool
  state : BundleState
  number : Option (BitVec 32)
  deriving DecidableEq, Repr

/-- The binding of a sort pocket (R84). A bound bundle's record stands in its binding. -/
inductive Binding where
  | unbound
  | blocked
  | bound (b : Bundle)
  deriving DecidableEq, Repr

/-- One place in the Collection Queue (R129): a bundle still bound to its pocket, whose record stands in the
binding, or a COLLECTABLE one, which holds no pocket and whose record stands here (R130). -/
inductive QueueEntry where
  | inPocket (pl : Place)
  | lifted (b : Bundle)
  deriving DecidableEq, Repr

/-! ### Ports and feeds (chapters 3 and 4) -/

/-- The stop set of a feed (R59). -/
structure StopSet where
  hold : Bool := false
  pocketFull : Bool := false
  power : Bool := false
  deriving DecidableEq, Repr

/-- The feed states; the end count is present exactly in ENDING (R54). -/
inductive FeedState where
  | active
  | suspended
  | jammed
  | ending (endCount : Nat)
  deriving DecidableEq, Repr

/-- A feed (R54). -/
structure Feed where
  slot : Slot
  reference : Reference
  state : FeedState
  stop : StopSet
  expected : Byte
  reported : Nat
  banded : Nat
  suspect : Nat
  returned : Nat
  lost : Nat
  jams : Nat
  sinceJam : Nat
  deriving DecidableEq, Repr

/-- Why a port is LOCKED (R51). -/
inductive LockCause where
  | referenceAttempts
  | abortedFeeds
  deriving DecidableEq, Repr

/-- The port states, with the feed that is present exactly in FEEDING and the lock cause that is present
exactly in LOCKED (R51). -/
inductive PortState where
  | down
  | ready
  | feeding (f : Feed)
  | locked (cause : LockCause)
  deriving DecidableEq, Repr

/-- An in-flight entry (R72). `slot` is its attribution; `index` is `none` for NONE. -/
structure Entry where
  seq : Byte
  pocket : Pocket
  slot : Option Slot
  index : Option DenomIndex
  fitness : Fitness
  deadline : Nat
  deriving DecidableEq, Repr

/-- Fill count, in-flight count and stack-present mark of P0 or P1 (4.8, R53). -/
structure StackCount where
  fill : Nat := 0
  inFlight : Nat := 0
  mark : Bool := false
  deriving DecidableEq, Repr

/-- Feed Refuse reasons (R179). -/
inductive RefuseReason where
  | locked
  | transportBusy
  | power
  | config
  | unknownReference
  | recordState
  | feedLimit
  | reopenLimit
  deriving DecidableEq, Repr

/-- End Refused reasons (R179). -/
inductive EndRefusal where
  | jammed
  | noFeed
  | ending
  | aborted
  deriving DecidableEq, Repr

/-- The messages from the CT-4 to a transport (3.1). `stop` carries the stop set and whether JAM is named. -/
inductive OutMessage where
  | helloAnswer (pace : Nat)
  | feedAccept (reference : Reference) (currency : SetId)
  | feedRefuse (reason : RefuseReason)
  | pocketOrder (seq : Byte) (pocket : Pocket)
  | strapOrder (pocket : Pocket) (number : BitVec 32)
  | stop (reasons : StopSet) (jam : Bool)
  | resume
  | pace (pace : Nat)
  | endDone (reported banded suspect returned lost : Nat)
  | endRefused (reason : EndRefusal)
  deriving DecidableEq, Repr

/-- A Transport Port (R51), with the messages produced for it in order (R50). -/
structure Port where
  state : PortState := .down
  refused : Nat := 0
  aborted : Nat := 0
  window : List Entry := []
  p0 : StackCount := {}
  p1 : StackCount := {}
  out : List OutMessage := []
  deriving DecidableEq, Repr

/-! ### Supervisor Link (chapter 9) and Power and Start-up (chapter 8) -/

/-- The completion codes (R173). -/
inductive CompletionCode where
  | ok
  | unknownRequest
  | badLength
  | badField
  | notFound
  | duplicate
  | tableFull
  | wrongState
  | activeFeeds
  | inBundle
  | inUse
  | empty
  | notReady
  | sealed
  | breakdownTotal
  | configFault
  deriving DecidableEq, Repr

/-- A request handed to its owning block: its code and its body (R170). -/
structure Request where
  code : Byte
  body : List Byte
  deriving DecidableEq, Repr

/-- What a request answers: completion code and response body (R173). -/
structure Reply where
  code : CompletionCode
  body : List Byte
  deriving DecidableEq, Repr

/-- The three link states (R169). EXECUTING keeps the overrun record of R171; HOLDING keeps the response with
its BUSY_OVERRUN flag. -/
inductive LinkState where
  | idle
  | executing (r : Request) (overrun : Bool)
  | holding (r : Reply) (overrun : Bool)
  deriving DecidableEq, Repr

/-- The reset-cause flags (R161). -/
structure Causes where
  powerUp : Bool := false
  resetLine : Bool := false
  powerWarning : Bool := false
  deriving DecidableEq, Repr

/-- A running hold-up timer: the clock value at which it started and its duration (8.1). -/
structure HoldUpTimer where
  start : Nat
  duration : Nat
  deriving DecidableEq, Repr

/-- The CT-4. `pending`, `now` and `shifted` are the model's own: the commands waiting, the clock in
milliseconds (DESIGN CHOICE, log 3), and the bytes shifted out in the last link frame (R168; DESIGN CHOICE,
log 13). -/
structure State where
  pending : List Instr
  now : Nat
  shifted : List Byte
  /-- Supply is present (R158). -/
  powered : Bool
  /-- The reset input is asserted (R159). -/
  resetLine : Bool
  /-- Level of the power-warning input (8.1). -/
  warning : Bool
  config : Configuration
  /-- The stored configuration check word (R12). -/
  checkWord : BitVec 16
  configFault : Bool
  records : Vector (Option DepositRecord) 128
  ports : Vector Port 4
  bindings : Vector Binding 24
  waiting : List Place
  queue : List QueueEntry
  nextNumber : BitVec 32
  /-- The Pace Governor's effective backlog e (R134). -/
  effective : Nat
  /-- The Pace Governor's current pace (R134). -/
  pace : Nat
  causes : Causes
  holdUp : Option HoldUpTimer
  link : LinkState
  deriving DecidableEq, Repr

/-- No event stops the CT-4 (INVENTORY.md, Faults), so no fault exists. -/
inductive Fault where
  deriving DecidableEq, Repr

/-- Why a command has no meaning. -/
inductive Refusal where
  /-- Raised by `exec` alone, for a command that has no meaning yet. Safe: the model stops. No arm raises it. -/
  | notModelled (mnemonic : String)
  deriving DecidableEq, Repr

/-- A denomination entry as Initialize Store writes it (R17). -/
def DenomEntry.initial : DenomEntry :=
  { face := 0, strap := 100, fitDisposition := 0, unfitDisposition := 0, combine := 0 }

/-- The general limits' defaults (R7). -/
def Limits.initial : Limits :=
  { flight := 600, idle := 30, holdUp := 60, suspectStop := 200, returnStop := 300 }

/-- The pace curve's defaults (R7). -/
def Curve.initial : Curve :=
  { points := #v[1000, 1000, 1000, 900, 750, 500, 250, 100, 0], hysteresis := 2 }

/-- The configuration that Initialize Store writes (R17). -/
def Configuration.initial : Configuration :=
  { entries := Vector.replicate 48 DenomEntry.initial, limits := Limits.initial, curve := Curve.initial }

/-- A factory-new part (R17, 8.5) right after its first start-up by power-up (R160); DESIGN CHOICE, log 1. The check word is
that of the defaults (R12; `test_initial_checkWord`). -/
def State.reset : State :=
  { pending := []
    now := 0
    shifted := []
    powered := true
    resetLine := false
    warning := false
    config := Configuration.initial
    checkWord := 0x2523#16
    configFault := false
    records := Vector.replicate 128 none
    ports := Vector.replicate 4 {}
    bindings := Vector.replicate 24 .unbound
    waiting := []
    queue := []
    nextNumber := 1
    effective := 0
    pace := 1000
    causes := { powerUp := true }
    holdUp := none
    link := .idle }

end Sys2Proof.Machine
end

