-- ==== Sys2Proof/Machine/Access.lean ====
section
/-! DEFINITION. The one way in which each piece of state is read and written. -/

namespace Sys2Proof.Machine

/-! ### Places of the hall -/

/-- The transport of a sort pocket (R84). -/
def placePort (pl : Place) : PortId :=
  ⟨pl.val / 6, by omega⟩

/-- The pocket number, P2 to P7, of a sort pocket. -/
def placePocket (pl : Place) : Pocket :=
  ⟨pl.val % 6 + 2, by omega⟩

/-- The sort pocket that a transport's pocket number names; `none` for P0 and P1. -/
def placeOf (p : PortId) (k : Pocket) : Option Place :=
  if 2 ≤ k.val then some ⟨p.val * 6 + (k.val - 2), by omega⟩ else none

/-- The six sort pockets of a transport, P2 first. -/
def portPlaces (p : PortId) : List Place :=
  (List.finRange 24).filter fun pl => placePort pl = p

/-- The pocket a message's pocket byte names (R177, R180). -/
def pocketOf (b : Byte) : Option Pocket :=
  if h : b.toNat < 8 then some ⟨b.toNat, h⟩ else none

/-! ### Ports and feeds -/

/-- The port is DOWN. -/
def Port.isDown (q : Port) : Bool :=
  match q.state with
  | .down => true
  | .ready | .feeding _ | .locked _ => false

/-- The feed of a port, present exactly in FEEDING (R51). -/
def Port.feed? (q : Port) : Option Feed :=
  match q.state with
  | .feeding f => some f
  | .down | .ready | .locked _ => none

/-- The counts of P0 or P1 changed by `g`; every other pocket has none. -/
def Port.modStack (q : Port) (k : Pocket) (g : StackCount → StackCount) : Port :=
  if k.val = 0 then { q with p0 := g q.p0 }
  else if k.val = 1 then { q with p1 := g q.p1 }
  else q

def State.port (s : State) (p : PortId) : Port :=
  s.ports[p.val]

def State.setPort (s : State) (p : PortId) (q : Port) : State :=
  { s with ports := s.ports.set p.val q }

def State.modPort (s : State) (p : PortId) (g : Port → Port) : State :=
  s.setPort p (g (s.port p))

def State.feed? (s : State) (p : PortId) : Option Feed :=
  (s.port p).feed?

def State.setFeed (s : State) (p : PortId) (f : Feed) : State :=
  s.modPort p fun q => { q with state := .feeding f }

/-- The port's feed changed by `g`; nothing on a port without a feed. -/
def State.modFeed (s : State) (p : PortId) (g : Feed → Feed) : State :=
  match s.feed? p with
  | some f => s.setFeed p (g f)
  | none => s

/-! ### Records -/

def State.record? (s : State) (i : Slot) : Option DepositRecord :=
  s.records[i.val]

def State.setRecord (s : State) (i : Slot) (r : Option DepositRecord) : State :=
  { s with records := s.records.set i.val r }

/-- The record of a slot changed by `g`; nothing on a FREE slot. -/
def State.modRecord (s : State) (i : Slot) (g : DepositRecord → DepositRecord) : State :=
  match s.record? i with
  | some r => s.setRecord i (some (g r))
  | none => s

/-- The slot whose record holds a reference (R19). -/
def State.slotOf? (s : State) (ref : Reference) : Option Slot :=
  (List.finRange 128).find? fun i =>
    match s.record? i with
    | some r => r.reference = ref
    | none => false

/-- The lowest-numbered FREE slot (R31). -/
def State.freeSlot? (s : State) : Option Slot :=
  (List.finRange 128).find? fun i => (s.record? i).isNone

/-- The transports of a feeding set, in ascending order. -/
def DepositRecord.members (r : DepositRecord) : List PortId :=
  (List.finRange 4).filter fun p => r.feeding[p.val]

/-! ### Bindings, bundles and the two lists -/

def State.binding (s : State) (pl : Place) : Binding :=
  s.bindings[pl.val]

def State.setBinding (s : State) (pl : Place) (b : Binding) : State :=
  { s with bindings := s.bindings.set pl.val b }

/-- The bundle bound to a sort pocket. -/
def State.bundle? (s : State) (pl : Place) : Option Bundle :=
  match s.binding pl with
  | .bound b => some b
  | .unbound | .blocked => none

/-- The bound bundle changed by `g`; nothing on a pocket that is not BOUND. -/
def State.modBundle (s : State) (pl : Place) (g : Bundle → Bundle) : State :=
  match s.bundle? pl with
  | some b => s.setBinding pl (.bound (g b))
  | none => s

/-- The record of a bundle in the Collection Queue. -/
def State.queued? (s : State) : QueueEntry → Option Bundle
  | .inPocket pl => s.bundle? pl
  | .lifted b => some b

/-! ### Configuration -/

/-- The denomination entry of an index in a set (1.1). -/
def Configuration.entry (c : Configuration) (k : SetId) (i : DenomIndex) : DenomEntry :=
  c.entries[k.val * 12 + i.val]

/-- The configuration with one denomination entry replaced whole (R4). -/
def Configuration.setEntry (c : Configuration) (k : SetId) (i : DenomIndex) (e : DenomEntry) : Configuration :=
  { c with entries := c.entries.set (k.val * 12 + i.val) e }

end Sys2Proof.Machine
end

