-- ==== Sys2Proof/Machine/Flags.lean ====
section
/-! DEFINITION. The conditions and totals that the manual defines over the state: limits in force, enabled
denominations, the pocket-full condition, credit and banded total, backlog, in-use test, Attention. -/

namespace Sys2Proof.Machine

/-- The part takes events: supply is present and the reset line is released (R158, R159). -/
def State.running (s : State) : Bool :=
  s.powered && !s.resetLine

/-! ### Configuration values in force (R7, R14) -/

/-- R14: a value below its range is taken as the lower end, one above as the upper end. -/
def clampTo (lo hi v : Nat) : Nat :=
  min hi (max lo v)

/-- The flight limit in force, in ms. Under CONFIG_FAULT it is clamped and rounded down to a multiple of 10
(R14). -/
def State.flightLimit (s : State) : Nat :=
  let v := s.config.limits.flight.toNat
  if s.configFault then clampTo 50 2000 v / 10 * 10 else v

/-- The idle limit in force, in minutes; 0 is off. Clamped under CONFIG_FAULT (R14; DEDUCED, log 11). -/
def State.idleLimit (s : State) : Nat :=
  let v := s.config.limits.idle.toNat
  if s.configFault then clampTo 0 240 v else v

/-- The hold-up time in force, in ms (R14). -/
def State.holdUpTime (s : State) : Nat :=
  let v := s.config.limits.holdUp.toNat
  if s.configFault then clampTo 20 200 v else v

/-- The suspect stop threshold in force (R14). -/
def State.suspectStop (s : State) : Nat :=
  let v := s.config.limits.suspectStop.toNat
  if s.configFault then clampTo 50 300 v else v

/-- The return stop threshold in force (R14). -/
def State.returnStop (s : State) : Nat :=
  let v := s.config.limits.returnStop.toNat
  if s.configFault then clampTo 100 500 v else v

/-- Point `k` of the pace curve as the governor reads it (R14, R136). -/
def State.pacePoint (s : State) (k : Fin 9) : Nat :=
  let v := s.config.curve.points[k.val].toNat
  if s.configFault then clampTo 0 1000 v else v

/-- The hysteresis H as the governor reads it (R14, R135). -/
def State.hysteresis (s : State) : Nat :=
  let v := s.config.curve.hysteresis.toNat
  if s.configFault then clampTo 0 4 v else v

/-- R4, R13: the ranges of a stored denomination entry. -/
def DenomEntry.inRange (e : DenomEntry) : Bool :=
  e.face.toNat ≤ Config.faceLimit && 10 ≤ e.strap.toNat && e.strap.toNat ≤ 200 &&
    e.fitDisposition.toNat ≤ 1 && e.unfitDisposition.toNat ≤ 1 && e.combine.toNat ≤ 1

/-- R7: the ranges of the five general limits. -/
def Limits.inRange (l : Limits) : Bool :=
  50 ≤ l.flight.toNat && l.flight.toNat ≤ 2000 && l.flight.toNat % 10 = 0 &&
    l.idle.toNat ≤ 240 &&
    20 ≤ l.holdUp.toNat && l.holdUp.toNat ≤ 200 &&
    50 ≤ l.suspectStop.toNat && l.suspectStop.toNat ≤ 300 &&
    100 ≤ l.returnStop.toNat && l.returnStop.toNat ≤ 500

/-- R7: the ranges of the pace curve and of H. -/
def Curve.inRange (c : Curve) : Bool :=
  c.points.toList.all (fun x => x.toNat ≤ 1000) && c.hysteresis.toNat ≤ 4

/-- R13: every stored value lies in its range. -/
def Configuration.inRange (c : Configuration) : Bool :=
  c.entries.toList.all DenomEntry.inRange && c.limits.inRange && c.curve.inRange

/-! ### Denominations (R1, R2) -/

/-- R1: the entry is enabled. -/
def DenomEntry.enabled (e : DenomEntry) : Bool :=
  e.face ≠ 0

/-- R2: the disposition of a fitness is SORT. -/
def DenomEntry.sorts (e : DenomEntry) : Fitness → Bool
  | .fit => e.fitDisposition = 0
  | .unfit => e.unfitDisposition = 0

/-- R2, R81: the bundle fitness of a note whose disposition is SORT. -/
def DenomEntry.bundleFitness (e : DenomEntry) (n : Fitness) : BundleFitness :=
  if e.sorts .fit && e.sorts .unfit && e.combine = 1 then .any
  else match n with
    | .fit => .fit
    | .unfit => .unfit

/-- The entry of an index in the set of a record. -/
def State.entryFor (s : State) (r : DepositRecord) (i : DenomIndex) : DenomEntry :=
  s.config.entry r.currency i

/-! ### Records -/

/-- R20: the banded total, the sum of the 24 banded cells. -/
def DepositRecord.bandedTotal (r : DepositRecord) : Nat :=
  (r.cells.toList.map fun c => c.fit + c.unfit).sum

/-- The sum of the twelve SUSPECT cells (R148). -/
def DepositRecord.suspectTotal (r : DepositRecord) : Nat :=
  (r.cells.toList.map fun c => c.suspect).sum

/-- R20: the record holds a credit. -/
def DepositRecord.holdsCredit (r : DepositRecord) : Bool :=
  r.bandedTotal ≠ 0 || r.suspectTotal ≠ 0 || r.unrecognized ≠ 0 || r.returned ≠ 0 || r.lost ≠ 0

/-- The feeding set is empty. -/
def DepositRecord.feedingEmpty (r : DepositRecord) : Bool :=
  r.members.isEmpty

/-- The banded cell of an index and a fitness. -/
def DepositRecord.cell (r : DepositRecord) (i : DenomIndex) : Fitness → Nat
  | .fit => r.cells[i.val].fit
  | .unfit => r.cells[i.val].unfit

/-- The records that are HELD (R175, R176). -/
def State.heldCount (s : State) : Nat :=
  (s.records.toList.filter fun r =>
    match r with
    | some r => r.state = .held
    | none => false).length

/-! ### Stop sets and pocket-full (R53, R59) -/

def StopSet.isEmpty (t : StopSet) : Bool :=
  !t.hold && !t.pocketFull && !t.power

/-- R53: the port's pocket-full condition under the two thresholds. -/
def Port.pocketFull (q : Port) (returnStop suspectStop : Nat) : Bool :=
  q.p0.fill + q.p0.inFlight ≥ returnStop || q.p1.fill + q.p1.inFlight ≥ suspectStop || q.p0.mark || q.p1.mark

/-- R53, R92: the condition under the thresholds in force. -/
def State.pocketFull (s : State) (p : PortId) : Bool :=
  (s.port p).pocketFull s.returnStop s.suspectStop

/-! ### Bundles -/

/-- R134: the backlog b, taken as 16 above 16. -/
def State.backlog (s : State) : Nat :=
  min Config.backlogLimit (s.queue.length + s.waiting.length)

/-- R5: some bundle record satisfies `g`: a bound one, or a COLLECTABLE one in the queue. -/
def State.anyBundle (s : State) (g : Bundle → Bool) : Bool :=
  s.bindings.toList.any (fun
    | .bound b => g b
    | .unbound | .blocked => false) ||
  s.queue.any (fun
    | .lifted b => g b
    | .inPocket _ => false)

/-- R5: a currency set is in use. -/
def State.setInUse (s : State) (k : SetId) : Bool :=
  s.records.toList.any (fun
    | some r => r.currency = k
    | none => false) ||
  s.anyBundle fun b => b.key.currency = k

/-! ### Attention (R176) -/

/-- The head of the Collection Queue is COLLECTABLE. -/
def State.headCollectable (s : State) : Bool :=
  match s.queue with
  | .lifted _ :: _ => true
  | _ => false

/-- At least one port is LOCKED. -/
def State.anyLocked (s : State) : Bool :=
  s.ports.toList.any fun q =>
    match q.state with
    | .locked _ => true
    | .down | .ready | .feeding _ => false

/-- R176: the Attention output. It is deasserted while the reset line is asserted (R159), and without supply
(DEDUCED, log 8). -/
def State.attention (s : State) : Bool :=
  s.running &&
    (s.headCollectable || s.heldCount ≠ 0 || s.anyLocked || s.configFault || s.warning)

end Sys2Proof.Machine
end

