-- ==== Sys2Proof/Machine/Codec.lean ====
section
/-! DEFINITION. The byte layouts of chapter 9: encodings, images, outgoing messages, and the configuration
check word over its bytes. -/

namespace Sys2Proof.Machine

def boolByte (b : Bool) : Byte :=
  if b then 1 else 0

/-- A count, or the number of a slot or pocket, as one byte. -/
def natByte (n : Nat) : Byte :=
  BitVec.ofNat 8 n

/-- R167: a set as a byte, the named values from bit 0 up. -/
def bitsByte (bits : List Bool) : Byte :=
  natByte (bits.foldr (fun b n => b.toNat + 2 * n) 0)

/-- A list of bytes with unused bytes after it, up to `n` (R167, R178). -/
def padTo (n : Nat) (bytes : List Byte) : List Byte :=
  bytes ++ List.replicate (n - bytes.length) 0

/-! ### Encodings (9.5) -/

def recordStateByte : Option RecordState → Byte
  | none => 0
  | some .declared => 1
  | some .counting => 2
  | some .balanced => 3
  | some .discrepant => 4
  | some .held => 5
  | some .sealed => 6

def CustodyMode.byte : CustodyMode → Byte
  | .segregated => 0
  | .pooled => 1

def HoldReasons.byte (h : HoldReasons) : Byte :=
  bitsByte [h.host, h.jamLimit, h.idle, h.power, h.feedMismatch, h.custody, h.reopenLimit, h.transport]

def RecordFlags.byte (f : RecordFlags) : Byte :=
  bitsByte [f.cellLimit, f.saturated, f.voidedNotes]

def SettleOutcome.byte : SettleOutcome → Byte
  | .exact => 0
  | .mixed => 1
  | .over => 2
  | .shortBySuspect => 3
  | .short => 4

def PriorState.byte : PriorState → Byte
  | .opened => 0
  | .filled => 1
  | .closing => 2
  | .completeWaiting => 3
  | .strapping => 4

def BundleState.byte : BundleState → Byte
  | .opened => 0
  | .filled => 1
  | .closing => 2
  | .completeWaiting => 3
  | .strapping => 4
  | .collectable => 5
  | .unconfirmed _ => 6

/-- The prior state byte of Look Bundle, 0xFF when absent (R177). -/
def BundleState.priorByte : BundleState → Byte
  | .unconfirmed q => q.byte
  | .opened | .filled | .closing | .completeWaiting | .strapping | .collectable => 0xFF

def BundleFitness.byte : BundleFitness → Byte
  | .fit => 0
  | .unfit => 1
  | .any => 2

def CustodyGroup.byte : CustodyGroup → Byte
  | .slot i => natByte i.val
  | .pool => 0x80

def PortState.byte : PortState → Byte
  | .down => 0
  | .ready => 1
  | .feeding _ => 2
  | .locked _ => 3

def PortState.lockByte : PortState → Byte
  | .locked .referenceAttempts => 1
  | .locked .abortedFeeds => 2
  | .down | .ready | .feeding _ => 0

def FeedState.byte : FeedState → Byte
  | .active => 1
  | .suspended => 2
  | .jammed => 3
  | .ending _ => 4

def StopSet.byte (t : StopSet) (jam : Bool) : Byte :=
  bitsByte [t.hold, t.pocketFull, t.power, jam]

def Causes.byte (c : Causes) : Byte :=
  bitsByte [c.powerUp, c.resetLine, c.powerWarning]

def CompletionCode.byte : CompletionCode → Byte
  | .ok => 0x00
  | .unknownRequest => 0x01
  | .badLength => 0x02
  | .badField => 0x03
  | .notFound => 0x04
  | .duplicate => 0x05
  | .tableFull => 0x06
  | .wrongState => 0x07
  | .activeFeeds => 0x08
  | .inBundle => 0x09
  | .inUse => 0x0A
  | .empty => 0x0B
  | .notReady => 0x0C
  | .sealed => 0x0D
  | .breakdownTotal => 0x0E
  | .configFault => 0x0F

def RefuseReason.byte : RefuseReason → Byte
  | .locked => 1
  | .transportBusy => 2
  | .power => 3
  | .config => 4
  | .unknownReference => 5
  | .recordState => 6
  | .feedLimit => 7
  | .reopenLimit => 8

def EndRefusal.byte : EndRefusal → Byte
  | .jammed => 1
  | .noFeed => 2
  | .ending => 3
  | .aborted => 4

/-! ### Configuration images and the check word (R12, R177, R181) -/

/-- The entry image, 8 bytes. -/
def DenomEntry.image (e : DenomEntry) : List Byte :=
  bytesOf 4 e.face.toNat ++ [e.strap, e.fitDisposition, e.unfitDisposition, e.combine]

/-- The limits image, 8 bytes. -/
def Limits.image (l : Limits) : List Byte :=
  bytesOf 2 l.flight.toNat ++ [l.idle, l.holdUp] ++ bytesOf 2 l.suspectStop.toNat ++ bytesOf 2 l.returnStop.toNat

/-- The curve image, 19 bytes. -/
def Curve.image (c : Curve) : List Byte :=
  c.points.toList.flatMap (fun x => bytesOf 2 x.toNat) ++ [c.hysteresis]

/-- R181: the 411 bytes under the check word. -/
def Configuration.image (c : Configuration) : List Byte :=
  c.entries.toList.flatMap DenomEntry.image ++ c.limits.image ++ c.curve.image

/-- R12 step 3, once. -/
def crcShift (r : BitVec 16) : BitVec 16 :=
  if r.msb then (r <<< 1) ^^^ 0x1021#16 else r <<< 1

/-- R12 steps 2 and 3 for one byte. -/
def crcByte (r : BitVec 16) (b : Byte) : BitVec 16 :=
  Nat.repeat crcShift 8 (r ^^^ ((b.setWidth 16) <<< 8))

/-- R12: the cyclic redundancy check of a list of bytes. -/
def crc (bytes : List Byte) : BitVec 16 :=
  bytes.foldl crcByte 0xFFFF#16

/-- R12, R181: the check word computed over a configuration as stored. -/
def Configuration.computedWord (c : Configuration) : BitVec 16 :=
  crc c.image

/-- The check word as a response carries it. -/
def wordBytes (w : BitVec 16) : List Byte :=
  bytesOf 2 w.toNat

/-! ### Record, result and bundle images (R178) -/

/-- The result image, 84 bytes. -/
def Settlement.image (r : Settlement) : List Byte :=
  [r.outcome.byte] ++ bytesOf 6 r.counted ++ bytesOf 6 r.suspect ++
  bytesOf 8 (BitVec.ofInt 64 r.difference).toNat ++ [boolByte r.suspectMark] ++
  match r.mismatches with
  | none => padTo 62 [0, 0]
  | some l => padTo 62 ([1, natByte l.length] ++
      l.flatMap fun m => natByte m.index.val :: bytesOf 4 (BitVec.ofInt 32 m.difference).toNat)

/-- R178: whole minutes of a running idle timer, saturating at 65,535; 0 when stopped. -/
def idleMinutes (now : Nat) : Option Nat → Nat
  | none => 0
  | some start => min Config.countLimit ((now - start) / Config.minute)

/-- The record image, 233 bytes. -/
def DepositRecord.image (r : DepositRecord) (slot : Slot) (now : Nat) : List Byte :=
  [natByte slot.val, recordStateByte (some r.state)] ++
  bytesOf 4 r.reference.toNat ++ bytesOf 3 r.customer.toNat ++
  [natByte r.currency.val, r.custody.byte] ++
  bytesOf 6 r.declaredTotal ++
  [natByte r.breakdown.length] ++
  padTo 36 (r.breakdown.flatMap fun e => natByte e.index.val :: bytesOf 2 e.count) ++
  r.cells.toList.flatMap (fun c => bytesOf 2 c.fit ++ bytesOf 2 c.unfit ++ bytesOf 2 c.suspect) ++
  bytesOf 2 r.unrecognized ++ bytesOf 2 r.returned ++ bytesOf 2 r.lost ++
  bytesOf 4 r.collected ++ bytesOf 4 r.voided ++
  [bitsByte r.feeding.toList, natByte r.pending, natByte r.reopens, r.holds.byte, r.flags.byte,
   boolByte r.idleSince.isSome] ++
  bytesOf 2 (idleMinutes now r.idleSince) ++
  match r.result with
  | none => padTo 85 [0]
  | some t => 1 :: t.image

/-- The bundle image, 70 bytes. A bundle without a number has none to show and is never returned. -/
def Bundle.image (b : Bundle) : List Byte :=
  bytesOf 4 (b.number.getD 0).toNat ++
  [natByte b.key.currency.val, natByte b.key.index.val, b.key.fitness.byte, b.key.group.byte,
   natByte (placePort b.place).val, natByte (placePocket b.place).val, natByte b.strap, natByte b.stacked,
   bitsByte [b.short, b.tainted], natByte b.contributions.length] ++
  padTo 56 (b.contributions.flatMap fun c =>
    natByte c.slot.val :: (bytesOf 4 c.reference.toNat ++ [natByte c.fit, natByte c.unfit]))

/-! ### The status image (R175, R177) -/

/-- The feed's part of a port block: feed state, reference, stop set, five counts, jam count. For a port without a
feed, the state is none and the reference and the counts are 0 (R175); that the stop set is then sent as the empty set
is no rule's (DESIGN CHOICE, log 24). -/
def feedBlock : Option Feed → List Byte
  | none => List.replicate 17 0
  | some f =>
    [f.state.byte] ++ bytesOf 4 f.reference.toNat ++ [f.stop.byte false] ++
    bytesOf 2 f.reported ++ bytesOf 2 f.banded ++ bytesOf 2 f.suspect ++ bytesOf 2 f.returned ++
    bytesOf 2 f.lost ++ [natByte f.jams]

/-- A port block, 29 bytes. -/
def Port.block (q : Port) : List Byte :=
  [q.state.byte, q.state.lockByte, natByte q.refused, natByte q.aborted] ++ feedBlock q.feed? ++
  [natByte q.window.length] ++ bytesOf 2 q.p0.fill ++ [natByte q.p0.inFlight] ++
  bytesOf 2 q.p1.fill ++ [natByte q.p1.inFlight, bitsByte [q.p0.mark, q.p1.mark]]

/-- The status image of Read Status, 130 bytes. -/
def State.statusImage (s : State) : List Byte :=
  [s.causes.byte, boolByte s.configFault] ++ wordBytes s.checkWord ++ [boolByte s.warning] ++
  bytesOf 2 s.suspectStop ++ bytesOf 2 s.returnStop ++
  s.ports.toList.flatMap Port.block ++
  [natByte s.queue.length, natByte s.waiting.length] ++ bytesOf 2 s.pace ++ [natByte s.heldCount]

/-! ### Messages to the transports (R179) -/

/-- The type byte and the body of a message to a transport. -/
def OutMessage.bytes : OutMessage → Byte × List Byte
  | .helloAnswer x => (0x20, bytesOf 2 x)
  | .feedAccept reference k => (0x21, bytesOf 4 reference.toNat ++ [natByte k.val])
  | .feedRefuse reason => (0x22, [reason.byte])
  | .pocketOrder seq k => (0x23, [seq, natByte k.val])
  | .strapOrder k number => (0x24, natByte k.val :: bytesOf 4 number.toNat)
  | .stop reasons jam => (0x25, [reasons.byte jam])
  | .resume => (0x26, [])
  | .pace x => (0x27, bytesOf 2 x)
  | .endDone reported banded suspect returned lost =>
    (0x28, bytesOf 2 reported ++ bytesOf 2 banded ++ bytesOf 2 suspect ++ bytesOf 2 returned ++ bytesOf 2 lost)
  | .endRefused reason => (0x29, [reason.byte])

/-- R179: a message to a transport as the port sends it: type byte, length byte, body. -/
def OutMessage.frame (m : OutMessage) : List Byte :=
  messageFrame m.bytes.1 m.bytes.2

/-- R50: the bytes of the port's outgoing messages on its line, in order. -/
def Port.line (q : Port) : List Byte :=
  q.out.flatMap OutMessage.frame

end Sys2Proof.Machine
end

