-- ==== Sys2Proof/Machine/Operands.lean ====
section
/-! DEFINITION. The fields of the request bodies (R177): read from bytes, and written as the host sends them.

A reader answers `none` exactly for a body of the wrong length, the test that every request makes first
(R170). Fields keep every value their bytes can hold; the request's own rule judges them. -/

namespace Sys2Proof.Machine

/-- The number in `len` bytes from offset `off` of a body. -/
def field (body : List Byte) (off len : Nat) : Nat :=
  natOf ((body.drop off).take len)

/-- The byte at an offset of a body. -/
def byteAt (body : List Byte) (off : Nat) : Byte :=
  body.getD off 0

/-! ### Bodies that are empty, one byte, or one reference -/

def readNothing (body : List Byte) : Option Unit :=
  match body with
  | [] => some ()
  | _ :: _ => none

def readOneByte (body : List Byte) : Option Byte :=
  match body with
  | [b] => some b
  | _ => none

def readReference (body : List Byte) : Option Reference :=
  if body.length = 4 then some (BitVec.ofNat 32 (natOf body)) else none

def referenceBody (ref : Reference) : List Byte :=
  bytesOf 4 ref.toNat

/-! ### Declare and Amend -/

/-- One entry of a breakdown as sent: index and count. -/
structure BreakdownField where
  index : Byte
  count : BitVec 16
  deriving DecidableEq, Repr

def readBreakdown : List Byte → List BreakdownField
  | i :: hi :: lo :: rest => { index := i, count := BitVec.ofNat 16 (natOf [hi, lo]) } :: readBreakdown rest
  | _ => []

def breakdownBytes (l : List BreakdownField) : List Byte :=
  l.flatMap fun e => e.index :: bytesOf 2 e.count.toNat

/-- The fields of Declare (R31). -/
structure Declaration where
  reference : Reference
  customer : BitVec 24
  currency : Byte
  custody : Byte
  total : BitVec 48
  breakdown : List BreakdownField
  deriving DecidableEq, Repr

/-- R31 test 1, R177: a Declare body is 16 + 3k bytes for its own count k of at most 12. -/
def readDeclaration (body : List Byte) : Option Declaration :=
  let k := field body 15 1
  if 16 ≤ body.length ∧ k ≤ Config.breakdownLimit ∧ body.length = 16 + 3 * k then
    some
      { reference := BitVec.ofNat 32 (field body 0 4)
        customer := BitVec.ofNat 24 (field body 4 3)
        currency := byteAt body 7
        custody := byteAt body 8
        total := BitVec.ofNat 48 (field body 9 6)
        breakdown := readBreakdown (body.drop 16) }
  else none

def Declaration.body (d : Declaration) : List Byte :=
  bytesOf 4 d.reference.toNat ++ bytesOf 3 d.customer.toNat ++ [d.currency, d.custody] ++
  bytesOf 6 d.total.toNat ++ [natByte d.breakdown.length] ++ breakdownBytes d.breakdown

/-- The fields of Amend (R32). -/
structure Amendment where
  reference : Reference
  total : BitVec 48
  breakdown : List BreakdownField
  deriving DecidableEq, Repr

/-- R32, R177: an Amend body is 11 + 3k bytes for its own count k of at most 12. -/
def readAmendment (body : List Byte) : Option Amendment :=
  let k := field body 10 1
  if 11 ≤ body.length ∧ k ≤ Config.breakdownLimit ∧ body.length = 11 + 3 * k then
    some
      { reference := BitVec.ofNat 32 (field body 0 4)
        total := BitVec.ofNat 48 (field body 4 6)
        breakdown := readBreakdown (body.drop 11) }
  else none

def Amendment.body (d : Amendment) : List Byte :=
  bytesOf 4 d.reference.toNat ++ bytesOf 6 d.total.toNat ++ [natByte d.breakdown.length] ++
  breakdownBytes d.breakdown

/-! ### Look Up, List, Seal -/

/-- The fields of Look Up (R34): selector 0 by reference, 1 by slot; the value's whole four bytes. -/
structure LookUpFields where
  selector : Byte
  value : BitVec 32
  deriving DecidableEq, Repr

def readLookUp (body : List Byte) : Option LookUpFields :=
  if body.length = 5 then
    some { selector := byteAt body 0, value := BitVec.ofNat 32 (field body 1 4) }
  else none

def LookUpFields.body (d : LookUpFields) : List Byte :=
  d.selector :: bytesOf 4 d.value.toNat

/-- The fields of List (R35): bit n of the filter stands for state code n. -/
structure ListFields where
  filter : Byte
  start : Byte
  deriving DecidableEq, Repr

def readListFields (body : List Byte) : Option ListFields :=
  match body with
  | [f, st] => some { filter := f, start := st }
  | _ => none

def ListFields.body (d : ListFields) : List Byte :=
  [d.filter, d.start]

/-- The fields of Seal (R46). -/
structure SealFields where
  reference : Reference
  accept : Byte
  deriving DecidableEq, Repr

def readSeal (body : List Byte) : Option SealFields :=
  if body.length = 5 then
    some { reference := BitVec.ofNat 32 (field body 0 4), accept := byteAt body 4 }
  else none

def SealFields.body (d : SealFields) : List Byte :=
  bytesOf 4 d.reference.toNat ++ [d.accept]

/-! ### Configuration writes -/

/-- The fields of Set Denomination (R4): set, index, entry image. -/
structure DenominationFields where
  currency : Byte
  index : Byte
  entry : DenomEntry
  deriving DecidableEq, Repr

def readDenomination (body : List Byte) : Option DenominationFields :=
  if body.length = 10 then
    some
      { currency := byteAt body 0
        index := byteAt body 1
        entry :=
          { face := BitVec.ofNat 32 (field body 2 4)
            strap := byteAt body 6
            fitDisposition := byteAt body 7
            unfitDisposition := byteAt body 8
            combine := byteAt body 9 } }
  else none

def DenominationFields.body (d : DenominationFields) : List Byte :=
  d.currency :: d.index :: d.entry.image

/-- R8, R177: the limits image. -/
def readLimits (body : List Byte) : Option Limits :=
  if body.length = 8 then
    some
      { flight := BitVec.ofNat 16 (field body 0 2)
        idle := byteAt body 2
        holdUp := byteAt body 3
        suspectStop := BitVec.ofNat 16 (field body 4 2)
        returnStop := BitVec.ofNat 16 (field body 6 2) }
  else none

/-- R10, R177: the curve image. -/
def readCurve (body : List Byte) : Option Curve :=
  if body.length = 19 then
    some
      { points := Vector.ofFn fun k : Fin 9 => BitVec.ofNat 16 (field body (2 * k.val) 2)
        hysteresis := byteAt body 18 }
  else none

end Sys2Proof.Machine
end

