-- ==== Sys2Proof/Machine/Ops.lean ====
section
/-! DEFINITION. The operations that several commands share, each said once: messages, stop sets, holds and
departures, bundles from reservation to the Collection Queue, losses, jams, aborts, voiding, the Pace Governor.

Where an operation names a record, feed or bundle that the law of the rules says is there and it is not, the
operation leaves the state as it is; no state that a run reaches has such a gap
(DESIGN CHOICE, log 14). -/

namespace Sys2Proof.Machine

/-! ### Counts -/

/-- One more, saturating at 65,535 (00 Conventions). -/
def bump (n : Nat) : Nat :=
  min (n + 1) Config.countLimit

/-- The count is at its limit, so that a further credit saturates (R24). -/
def atLimit (n : Nat) : Bool :=
  Config.countLimit ≤ n

/-! ### Messages (R50) -/

/-- R50: a message produced for a port joins its outgoing order; for a DOWN port it is not produced. -/
def State.send (s : State) (p : PortId) (m : OutMessage) : State :=
  if (s.port p).isDown then s else s.modPort p fun q => { q with out := q.out ++ [m] }

/-- The message is sent where `say` is set. An event that discards the feed changes its stop set silently
(R69, R156). -/
def State.sendIf (s : State) (say : Bool) (p : PortId) (m : OutMessage) : State :=
  if say then s.send p m else s

/-! ### The stop set (R59, R60) -/

/-- R60: the stop set of the port's feed becomes `new`, with the message and the feed state that follow. A
change that leaves the set as it is does nothing; a JAMMED feed takes it silently. -/
def State.setStop (s : State) (say : Bool) (p : PortId) (new : StopSet) : State :=
  match s.feed? p with
  | none => s
  | some f =>
    if new = f.stop then s
    else match f.state with
      | .active =>
        if new.isEmpty then s.setFeed p { f with stop := new }
        else (s.setFeed p { f with stop := new, state := .suspended }).sendIf say p (.stop new false)
      | .suspended =>
        if new.isEmpty then (s.setFeed p { f with stop := new, state := .active }).sendIf say p .resume
        else (s.setFeed p { f with stop := new }).sendIf say p (.stop new false)
      | .ending _ =>
        (s.setFeed p { f with stop := new }).sendIf say p (if new.isEmpty then .resume else .stop new false)
      | .jammed => s.setFeed p { f with stop := new }

/-- HOLD joins or leaves the stop set of the port's feed (R59). -/
def State.setHoldStop (s : State) (say : Bool) (p : PortId) (on : Bool) : State :=
  match s.feed? p with
  | some f => s.setStop say p { f.stop with hold := on }
  | none => s

/-- POWER joins or leaves the stop set of the port's feed (R59, R154, R155). -/
def State.setPowerStop (s : State) (p : PortId) (on : Bool) : State :=
  match s.feed? p with
  | some f => s.setStop true p { f.stop with power := on }
  | none => s

/-- R92: the pocket-full condition is tested, and POCKET_FULL joins or leaves the stop set. -/
def State.retestPocketFull (s : State) (say : Bool) (p : PortId) : State :=
  match s.feed? p with
  | some f => s.setStop say p { f.stop with pocketFull := s.pocketFull p }
  | none => s

/-! ### Holds and departures (R36, R38, R42) -/

def HoldReasons.add (h : HoldReasons) : HoldReason → HoldReasons
  | .host => { h with host := true }
  | .jamLimit => { h with jamLimit := true }
  | .idle => { h with idle := true }
  | .power => { h with power := true }
  | .feedMismatch => { h with feedMismatch := true }
  | .custody => { h with custody := true }
  | .reopenLimit => { h with reopenLimit := true }
  | .transport => { h with transport := true }

/-- The record's own side of a hold (R36, R38): it enters HELD, loses its result and its idle timer; a HELD
record adds the reason; a SEALED one adds nothing. -/
def DepositRecord.takeHold (r : DepositRecord) (why : HoldReason) : DepositRecord :=
  match r.state with
  | .sealed => r
  | .held => { r with holds := r.holds.add why }
  | .declared | .counting | .balanced | .discrepant =>
    { r with state := .held, holds := r.holds.add why, result := none, idleSince := none }

/-- The record is in one of the four states from which a hold enters HELD (R36). -/
def RecordState.entersHeld : RecordState → Bool
  | .declared | .counting | .balanced | .discrepant => true
  | .held | .sealed => false

/-- R36, R38: a hold reaches the record of a slot; on entering HELD, HOLD joins the stop set of every feed of
the feeding set. A FREE slot takes nothing. -/
def State.holdRecord (s : State) (say : Bool) (i : Slot) (why : HoldReason) : State :=
  match s.record? i with
  | none => s
  | some r =>
    let s' := s.setRecord i (some (r.takeHold why))
    if r.state.entersHeld then r.members.foldl (fun t p => t.setHoldStop say p true) s' else s'

/-- R42, R43: a COUNTING record with an empty feeding set starts its idle timer from zero. -/
def DepositRecord.startIdle (r : DepositRecord) (now : Nat) : DepositRecord :=
  if r.state = .counting ∧ r.feedingEmpty then { r with idleSince := some now } else r

/-- R27, R42: a transport leaves the record's feeding set, as one event with the hold that comes with it. -/
def State.depart (s : State) (say : Bool) (i : Slot) (p : PortId) (why : Option HoldReason) : State :=
  let s' := s.modRecord i fun r => { r with feeding := r.feeding.set p.val false }
  match why with
  | some w => s'.holdRecord say i w
  | none => s'.modRecord i fun r => r.startIdle s.now

/-! ### The Collection Queue (R123, R127, R128) -/

/-- R128: the bundle number after a number; 1 follows 0xFFFFFFFF. -/
def numberAfter (n : BitVec 32) : BitVec 32 :=
  if n = 0xFFFFFFFF#32 then 1#32 else n + 1#32

/-- R128: the bundle bound to `pl` enters the queue: number, STRAPPING, tail of the queue, Strap Order. -/
def State.enterQueue (s : State) (pl : Place) : State :=
  let s1 := s.modBundle pl fun b => { b with state := .strapping, number := some s.nextNumber }
  let s2 := { s1 with nextNumber := numberAfter s.nextNumber, queue := s.queue ++ [QueueEntry.inPocket pl] }
  s2.send (placePort pl) (.strapOrder (placePocket pl) s.nextNumber)

/-- R123: a complete bundle enters the queue, or waits at the tail of the waiting list. -/
def State.complete (s : State) (pl : Place) : State :=
  if s.queue.length < Config.queueCapacity ∧ s.waiting = [] then s.enterQueue pl
  else
    let s' := s.modBundle pl fun b => { b with state := .completeWaiting }
    { s' with waiting := s'.waiting ++ [pl] }

/-- R127: the promotion test, made at most `n` times, while it passes. -/
def State.promoteUpTo : Nat → State → State
  | 0, s => s
  | n + 1, s =>
    match s.waiting with
    | [] => s
    | pl :: rest =>
      match s.bundle? pl with
      | none => s
      | some b =>
        if s.queue.length < Config.queueCapacity ∧ b.state = .completeWaiting then
          State.promoteUpTo n ({ s with waiting := rest }.enterQueue pl)
        else s

/-- R127: promotion, repeated while the test passes. -/
def State.promote (s : State) : State :=
  State.promoteUpTo s.waiting.length s

/-- R130, R164: the strapped stack has been lifted: COLLECTABLE in its place in the queue, pocket UNBOUND. -/
def State.lift (s : State) (pl : Place) : State :=
  match s.bundle? pl with
  | none => s
  | some b =>
    { s.setBinding pl .unbound with
      queue := s.queue.map fun e =>
        if e = .inPocket pl then .lifted { b with state := .collectable } else e }

/-! ### Voiding (R115) -/

/-- R115: one contribution of a voided bundle reaches its record, where the slot still holds the reference. -/
def State.voidContribution (s : State) (c : Contribution) : State :=
  match s.record? c.slot with
  | none => s
  | some r =>
    if r.reference = c.reference then
      (s.setRecord c.slot (some { r with
        voided := r.voided + (c.fit + c.unfit)
        flags := { r.flags with voidedNotes := true } })).holdRecord true c.slot .custody
    else s

/-- R115, R114, R164: the bundle of a pocket is voided, leaves the waiting list, and the pocket is UNBOUND. -/
def State.voidBundle (s : State) (pl : Place) : State :=
  match s.bundle? pl with
  | none => s
  | some b =>
    let s' := b.contributions.foldl State.voidContribution s
    { s'.setBinding pl .unbound with waiting := s'.waiting.filter (· ≠ pl) }

/-! ### The Pace Governor (R134 to R137) -/

/-- R136: the pace for an effective backlog: the curve's point for even e, half the sum of the neighbours for
odd e, any half dropped. -/
def State.paceFor (s : State) (e : Nat) : Nat :=
  let k : Fin 9 := ⟨min (e / 2) 8, by omega⟩
  let k' : Fin 9 := ⟨min ((e + 1) / 2) 8, by omega⟩
  (s.pacePoint k + s.pacePoint k') / 2

/-- R137: the pace is worked out afresh; where it differs from the current one it replaces it and is sent to
every port that is not DOWN, but for one that hears it in its Hello Answer. -/
def State.repace (s : State) (unsaid : Option PortId) : State :=
  let x := s.paceFor s.effective
  if x = s.pace then s
  else (List.finRange 4).foldl (fun t p => if unsaid = some p then t else t.send p (.pace x)) { s with pace := x }

/-- R135: the effective backlog after the backlog `b` is judged. -/
def effectiveAfter (b e h : Nat) : Nat :=
  if e ≤ b then b else if b + h < e then b + h else e

/-- R135: the backlog is judged once at the end of an event that began with backlog `b0`. -/
def State.judgeBacklog (s : State) (b0 : Nat) (unsaid : Option PortId) : State :=
  let b := s.backlog
  if b = b0 then s
  else
    let e := effectiveAfter b s.effective s.hysteresis
    if e = s.effective then s else { s with effective := e }.repace unsaid

/-- An event after which the governor judges the backlog (R135). Its Pace stands behind the event's own messages
(DESIGN CHOICE where no rule gives the order, log 10). -/
def State.judged (s : State) (event : State → State) : State :=
  (event s).judgeBacklog s.backlog none

/-! ### Reservations and losses (R89, R106, R107) -/

/-- The contribution of a slot changed by `g`. -/
def Bundle.modContribution (b : Bundle) (i : Slot) (g : Contribution → Contribution) : Bundle :=
  { b with contributions := b.contributions.map fun c => if c.slot = i then g c else c }

/-- R118: the contributions whose three counts are all 0 leave the list. -/
def Bundle.dropEmpty (b : Bundle) : Bundle :=
  { b with contributions := b.contributions.filter fun c => c.fit + c.unfit + c.reserved ≠ 0 }

/-- R106 step 2: the bundle gives back one reservation of a slot, and an empty contribution leaves it. -/
def Bundle.giveBack (b : Bundle) (i : Option Slot) : Bundle :=
  let b' := { b with inFlight := b.inFlight - 1 }
  match i with
  | none => b'
  | some i => (b'.modContribution i fun c => { c with reserved := c.reserved - 1 }).dropEmpty

/-- R106 step 2 and R107: the bundle bound to `pl` loses a reservation and is judged at once. The bundle of the
pulled pocket does not complete (R114). -/
def State.loseReservation (s : State) (pulled : Option Place) (pl : Place) (i : Option Slot) : State :=
  match s.bundle? pl with
  | none => s
  | some b0 =>
    let b := b0.giveBack i
    match b.state with
    | .filled =>
      s.setBinding pl (.bound (if b.stacked + b.inFlight < b.strap then { b with state := .opened } else b))
    | .opened =>
      s.setBinding pl (if b.stacked = 0 ∧ b.inFlight = 0 then .unbound else .bound b)
    | .closing =>
      if b.inFlight ≠ 0 then s.setBinding pl (.bound b)
      else if b.stacked = 0 then s.setBinding pl .unbound
      else if pulled = some pl then s.setBinding pl (.bound b)
      else (s.setBinding pl (.bound b)).complete pl
    | .completeWaiting | .strapping | .collectable | .unconfirmed _ => s.setBinding pl (.bound b)

/-- R25, R106 step 3: the record's side of a loss. -/
def DepositRecord.takeLoss (r : DepositRecord) (sortPocket : Bool) : DepositRecord :=
  { r with
    lost := bump r.lost
    flags := { r.flags with saturated := r.flags.saturated || atLimit r.lost }
    pending := if sortPocket then r.pending - 1 else r.pending }

/-- R106: an in-flight entry is lost. -/
def State.loseEntry (s : State) (say : Bool) (pulled : Option Place) (p : PortId) (e : Entry) : State :=
  let s1 := s.modPort p fun q => { q with window := q.window.filter fun x => x.seq ≠ e.seq }
  let s2 := match placeOf p e.pocket with
    | none => s1.modPort p fun q => q.modStack e.pocket fun k => { k with inFlight := k.inFlight - 1 }
    | some pl => s1.loseReservation pulled pl e.slot
  let s3 := match e.slot with
    | none => s2
    | some i =>
      (s2.modRecord i fun r => r.takeLoss (placeOf p e.pocket).isSome).modFeed p fun f =>
        { f with lost := bump f.lost }
  match placeOf p e.pocket with
  | none => s3.retestPocketFull say p
  | some _ => s3

/-- R106: every entry in the window is lost, oldest first. -/
def State.loseWindow (s : State) (say : Bool) (pulled : Option Place) (p : PortId) : State :=
  (s.port p).window.foldl (fun t e => t.loseEntry say pulled p e) s

/-! ### Aborts and jams (R64, R65, R109 to R111) -/

/-- R64 steps 2 and 3: the transport leaves the feeding set with the hold of the cause, and the feed is
discarded. The window has been lost before. -/
def State.abortFeed (s : State) (say : Bool) (p : PortId) (why : HoldReason) : State :=
  match s.feed? p with
  | none => s
  | some f => (s.depart say f.slot p (some why)).modPort p fun q => { q with state := .ready }

/-- R65, R110: the abort at the jam limit. End Refused is sent, and the aborted-feed count rises and locks the
port where it reaches 2. -/
def State.abortAtLimit (s : State) (p : PortId) : State :=
  ((s.abortFeed true p .jamLimit).send p (.endRefused .aborted)).modPort p fun q =>
    { q with
      aborted := q.aborted + 1
      state := if Config.abortedLimit ≤ q.aborted + 1 then .locked .abortedFeeds else q.state }

/-- R109 steps 2 to 4 on a feed whose window has been lost: JAMMED, the counts, and the declared jam's Stop or
the abort at the limit. -/
def State.enterJam (s : State) (declared : Bool) (p : PortId) : State :=
  match s.feed? p with
  | none => s
  | some f =>
    let f' := { f with state := .jammed, jams := f.jams + 1, sinceJam := 0 }
    if f'.jams < Config.jamLimit then (s.setFeed p f').sendIf declared p (.stop f'.stop true)
    else (s.setFeed p f').abortAtLimit p

/-- R111: a jam on a JAMMED feed whose window has been lost says Stop again if the CT-4 declared it. -/
def State.repeatJam (s : State) (declared : Bool) (p : PortId) : State :=
  match s.feed? p with
  | none => s
  | some f => s.sendIf declared p (.stop f.stop true)

/-- R108 to R111: a jam is taken on the port's feed; without a feed it has no effect. The messages that its losses
produce (R108, R109) stand before End Refused at the jam limit too, though R110 calls End Refused the one message
that the aborting jam sends (DESIGN CHOICE, log 23). -/
def State.takeJam (s : State) (declared : Bool) (pulled : Option Place) (p : PortId) : State :=
  match s.feed? p with
  | none => s
  | some f =>
    let s' := s.loseWindow true pulled p
    match f.state with
    | .jammed => s'.repeatJam declared p
    | .active | .suspended | .ending _ => s'.enterJam declared p

/-- R49: the effect of a discarded message: a jam with cause PROTOCOL on a feed that is ACTIVE, SUSPENDED or
ENDING. -/
def State.discardMessage (s : State) (p : PortId) : State :=
  match s.feed? p with
  | none => s
  | some f =>
    match f.state with
    | .jammed => s
    | .active | .suspended | .ending _ => s.takeJam true none p

/-! ### Confirmed and stray notes (R100, R104) -/

/-- R100: a confirmation of an entry of the feed; 200 of them forgive its jams. -/
def Feed.confirmed (f : Feed) : Feed :=
  if Config.forgivenessRun ≤ f.sinceJam + 1 then { f with sinceJam := 0, jams := 0 }
  else { f with sinceJam := f.sinceJam + 1 }

/-- R104: a stray note marks the pocket it reached. -/
def State.stray (s : State) (p : PortId) (k : Pocket) : State :=
  match placeOf p k with
  | none => (s.modPort p fun q => q.modStack k fun c => { c with fill := bump c.fill }).retestPocketFull true p
  | some pl =>
    match s.binding pl with
    | .bound b => s.setBinding pl (.bound { b with tainted := true })
    | .unbound | .blocked => s.setBinding pl .blocked

/-! ### The end of a feed (R63) -/

/-- R63: the end completes where the feed is ENDING and the window is empty. A reported count of 65,535 is taken as
saturated (DEDUCED, log 9). -/
def State.completeEnd (s : State) (p : PortId) : State :=
  match s.feed? p with
  | none => s
  | some f =>
    match f.state with
    | .active | .suspended | .jammed => s
    | .ending n =>
      if (s.port p).window = [] then
        let why := if n = f.reported ∧ !atLimit f.reported then none else some HoldReason.feedMismatch
        ((s.depart true f.slot p why).send p
          (.endDone f.reported f.banded f.suspect f.returned f.lost)).modPort p fun q =>
            { q with aborted := 0, state := .ready }
      else s

/-! ### Short close (R122, R124, R125) -/

/-- What a short close has done so far: the state, the bundles it made CLOSING, the bundles it completed. -/
structure Closing where
  state : State
  reached : Nat
  completed : Nat

/-- R122: the short close of the bundle bound to `pl`, if `sel` selects it. -/
def Closing.closeOne (sel : Bundle → Bool) (c : Closing) (pl : Place) : Closing :=
  match c.state.bundle? pl with
  | none => c
  | some b =>
    if sel b then
      match b.state with
      | .opened =>
        let s := c.state.setBinding pl (.bound { b with state := .closing, short := true })
        if b.inFlight = 0 then { state := s.complete pl, reached := c.reached + 1, completed := c.completed + 1 }
        else { c with state := s, reached := c.reached + 1 }
      | .unconfirmed .opened | .unconfirmed .filled =>
        { c with
          state := c.state.setBinding pl (.bound { b with state := .unconfirmed .closing, short := true })
          reached := c.reached + 1 }
      | .filled | .closing | .completeWaiting | .strapping | .collectable | .unconfirmed .closing
      | .unconfirmed .completeWaiting | .unconfirmed .strapping => c
    else c

/-- R124, R125: the short close of every selected bundle, in ascending transport and pocket order. -/
def State.shortClose (s : State) (sel : Bundle → Bool) : Closing :=
  (List.finRange 24).foldl (Closing.closeOne sel) { state := s, reached := 0, completed := 0 }

/-! ### Timers (R44, R9) -/

/-- R44: the record's idle timer has run for the idle limit, and the limit is not 0. -/
def State.idleDue (s : State) (i : Slot) : Bool :=
  match s.record? i with
  | none => false
  | some r =>
    match r.idleSince with
    | none => false
    | some start => s.idleLimit ≠ 0 && start + s.idleLimit * Config.minute ≤ s.now

/-- R9: every running idle timer whose measured time equals or passes the limit expires, in slot order (DESIGN
CHOICE, log 18). -/
def State.expireIdle (s : State) : State :=
  (List.finRange 128).foldl (fun t i => if t.idleDue i then t.holdRecord true i .idle else t) s

/-- R9: every port compares its P0 and P1 counts with the stop thresholds. -/
def State.retestThresholds (s : State) : State :=
  (List.finRange 4).foldl (fun t p => t.retestPocketFull true p) s

/-- The clock has reached at least `t` (DESIGN CHOICE, log 5). -/
def State.clockAtLeast (s : State) (t : Nat) : State :=
  { s with now := max s.now t }

/-- An event that the CT-4 takes only while it runs (R159). -/
def State.whenRunning (s : State) (event : State → State) : State :=
  if s.running then event s else s

/-! ### The volatile state (R158) -/

/-- R158: the volatile state is discarded (DESIGN CHOICE, log 8). -/
def State.discardVolatile (s : State) : State :=
  { s with
    ports := Vector.replicate 4 {}
    records := s.records.map fun r => r.map fun r => { r with pending := 0, idleSince := none }
    bindings := s.bindings.map fun
      | .bound b => .bound b
      | .unbound | .blocked => .unbound
    effective := 0
    pace := 0
    holdUp := none
    configFault := false
    link := .idle }

end Sys2Proof.Machine
end

