-- ==== Sys2Proof/Machine/Link.lean ====
section
/-! DEFINITION. The Supervisor Link: frames, polls, and the carrying out of a request (R168 to R173). -/

namespace Sys2Proof.Machine

/-- A request's own rule: what it does to the state, and what it answers. -/
abbrev RequestRule := List Byte → State → State × Reply

/-- A refused request changes nothing and answers an empty body (R173). -/
def refuse (s : State) (code : CompletionCode) : State × Reply :=
  (s, { code := code, body := [] })

/-- A request carried out, with its response body (R173). -/
def accept (s : State) (body : List Byte) : State × Reply :=
  (s, { code := .ok, body := body })

/-! ### Request codes (R177) -/

def declareCode : Byte := 0x01
def amendCode : Byte := 0x02
def cancelCode : Byte := 0x03
def lookUpCode : Byte := 0x04
def listCode : Byte := 0x05
def settleCode : Byte := 0x06
def holdCode : Byte := 0x07
def releaseCode : Byte := 0x08
def sealCode : Byte := 0x09
def retireCode : Byte := 0x0A
def takeBundleCode : Byte := 0x0B
def lookBundleCode : Byte := 0x0C
def flushPooledCode : Byte := 0x0D
def setDenominationCode : Byte := 0x0E
def setLimitsCode : Byte := 0x0F
def setPaceCurveCode : Byte := 0x10
def readConfigurationCode : Byte := 0x11
def commitConfigurationCode : Byte := 0x12
def initializeStoreCode : Byte := 0x13
def readStatusCode : Byte := 0x14
def clearCausesCode : Byte := 0x15
def releaseTransportCode : Byte := 0x16

/-- The code is one of the table of 9.5. -/
def knownCode (c : Byte) : Bool :=
  1 ≤ c.toNat && c.toNat ≤ 0x16

/-- R177: the frame of a request: code, body length, body. -/
def requestBytes (code : Byte) (body : List Byte) : List Byte :=
  code :: natByte body.length :: body

/-! ### Polls (R168, R169) -/

/-- R169: the link's answer to a poll, from its second byte. -/
def LinkState.answer : LinkState → List Byte
  | .idle => [0x00]
  | .executing _ _ => [0x01]
  | .holding r overrun => [0x02, r.code.byte, boolByte overrun, natByte r.body.length] ++ r.body

/-- R168: what the CT-4 shifts out in a poll of `n` bytes: 0xFF, the answer, and 0xFF after it. -/
def LinkState.shiftedOut (l : LinkState) (n : Nat) : List Byte :=
  (0xFF :: l.answer ++ List.replicate n 0xFF).take n

/-- R168: a poll changes nothing but what is shifted out. A frame in which no whole byte was clocked has no
effect. -/
def State.pollLink (s : State) (n : Nat) : State :=
  if n = 0 then s else { s with shifted := s.link.shiftedOut n }

/-! ### Request frames (R170, R171) -/

/-- R170: the link's judgement of a request frame in IDLE or HOLDING: code, then framing, then the handing over
to the owning block. -/
def judgeFrame (code : Byte) (rest : List Byte) : LinkState :=
  if !knownCode code then .holding { code := .unknownRequest, body := [] } false
  else match rest with
    | [] => .holding { code := .badLength, body := [] } false
    | len :: body =>
      if len.toNat ≤ Config.bodyLimit ∧ body.length = len.toNat then .executing { code := code, body := body } false
      else .holding { code := .badLength, body := [] } false

/-- R168, R170, R171: a frame is taken at the release of chip-select. A first byte 0x00 makes it a poll; a
request frame in EXECUTING is discarded whole and recorded as an overrun. -/
def State.takeFrame (s : State) (frame : List Byte) : State :=
  match frame with
  | [] => s
  | code :: rest =>
    if code = 0 then s.pollLink frame.length
    else
      let s' := { s with shifted := List.replicate frame.length 0xFF }
      match s.link with
      | .executing r _ => { s' with link := .executing r true }
      | .idle | .holding _ _ => { s' with link := judgeFrame code rest }

/-- R170, R171: the owning block takes the request in execution: its rule, then HOLDING with the response and
the overrun record. -/
def State.carryOut (s : State) (rule : RequestRule) (r : Request) (overrun : Bool) : State :=
  let out := rule r.body s
  { out.1 with link := .holding out.2 overrun }

/-- A request command (DESIGN CHOICE, log 2). Where the link is EXECUTING this very request, it is the request's event. In
IDLE or HOLDING it is the host's frame and, where the link hands it over, its event next. Where another request
is in execution, the frame is discarded (R171). -/
def State.request (s : State) (code : Byte) (rule : RequestRule) (body : List Byte) : State :=
  match s.link with
  | .executing r overrun =>
    if r = { code := code, body := body } then s.carryOut rule r overrun
    else s.takeFrame (requestBytes code body)
  | .idle | .holding _ _ =>
    let s' := s.takeFrame (requestBytes code body)
    match s'.link with
    | .executing r overrun => s'.carryOut rule r overrun
    | .idle | .holding _ _ => s'

/-- The outcome of a request command. -/
def execRequest (code : Byte) (rule : RequestRule) (body : List Byte) (s : State) :
    Host.Outcome State Fault Refusal :=
  .next (s.whenRunning fun s => s.request code rule body)

/-- POLL (R168). -/
def execPoll (clocked : Nat) (s : State) : Host.Outcome State Fault Refusal :=
  .next (s.whenRunning fun s => s.pollLink clocked)

/-- REQUEST_FRAME (R170). -/
def execRequestFrame (frame : List Byte) (s : State) : Host.Outcome State Fault Refusal :=
  .next (s.whenRunning fun s => s.takeFrame frame)

end Sys2Proof.Machine
end

