-- ==== Sys2Proof/Machine/Bundles.lean ====
section
/-! DEFINITION. The host requests on bundles (chapter 6): Take Bundle, Look Bundle, Flush Pooled. -/

namespace Sys2Proof.Machine

/-- R26, R131 step 2: a contribution of a taken bundle reaches its record, where the slot still holds the
reference. -/
def State.collect (s : State) (c : Contribution) : State :=
  s.modRecord c.slot fun r =>
    if r.reference = c.reference then { r with collected := r.collected + (c.fit + c.unfit) } else r

/-- R131: the COLLECTABLE head `b`, with `rest` behind it, is handed over. -/
def State.takeHead (s : State) (b : Bundle) (rest : List QueueEntry) : State :=
  s.judged fun s => (b.contributions.foldl State.collect { s with queue := rest }).promote

/-- R131: Take Bundle. -/
def takeBundleRule : RequestRule := fun body s =>
  match readNothing body with
  | none => refuse s .badLength
  | some _ =>
    match s.queue with
    | [] => refuse s .empty
    | .inPocket _ :: _ => refuse s .notReady
    | .lifted b :: rest => accept (s.takeHead b rest) b.image

/-- R132: what Look Bundle answers for the head of the queue. -/
def State.headImage (s : State) (e : QueueEntry) : List Byte :=
  match s.queued? e with
  | none => []
  | some b => b.image ++ [b.state.byte, b.state.priorByte, natByte s.queue.length, natByte s.waiting.length]

/-- R132: Look Bundle. -/
def lookBundleRule : RequestRule := fun body s =>
  match readNothing body with
  | none => refuse s .badLength
  | some _ =>
    match s.queue with
    | [] => refuse s .empty
    | e :: _ => accept s (s.headImage e)

/-- R125: the bundles that Flush Pooled of a set closes short. -/
def flushCloses (k : Nat) (b : Bundle) : Bool :=
  b.key.currency.val = k && b.key.group = .pool

/-- R125: Flush Pooled. -/
def flushPooledRule : RequestRule := fun body s =>
  match readOneByte body with
  | none => refuse s .badLength
  | some k =>
    if 3 < k.toNat then refuse s .badField
    else
      let c := s.shortClose (flushCloses k.toNat)
      accept (c.state.judgeBacklog s.backlog none) [natByte c.reached, natByte c.completed]

/-- TAKE_BUNDLE (R131). -/
def execTakeBundle (body : List Byte) (s : State) : Host.Outcome State Fault Refusal :=
  execRequest takeBundleCode takeBundleRule body s

/-- LOOK_BUNDLE (R132). -/
def execLookBundle (body : List Byte) (s : State) : Host.Outcome State Fault Refusal :=
  execRequest lookBundleCode lookBundleRule body s

/-- FLUSH_POOLED (R125). -/
def execFlushPooled (body : List Byte) (s : State) : Host.Outcome State Fault Refusal :=
  execRequest flushPooledCode flushPooledRule body s

end Sys2Proof.Machine
end

