-- ==== Sys2Proof/Machine/Configure.lean ====
section
/-! DEFINITION. The host requests on the configuration (chapter 1): Set Denomination, Set Limits, Set Pace
Curve, Read Configuration, Commit Configuration, Initialize Store. -/

namespace Sys2Proof.Machine

/-- R12: the check word is recomputed over the whole configuration and stored. -/
def State.storeCheckWord (s : State) : State :=
  { s with checkWord := s.config.computedWord }

/-- The stored check word as the responses of these requests carry it. -/
def State.wordImage (s : State) : List Byte :=
  wordBytes s.checkWord

/-! ### Set Denomination (R4 to R6) -/

/-- R4 test 2: the ranges of a requested entry; a strap size of 0 is allowed. -/
def DenomEntry.requestable (e : DenomEntry) : Bool :=
  e.face.toNat ≤ Config.faceLimit &&
    (e.strap = 0 || 10 ≤ e.strap.toNat && e.strap.toNat ≤ 200) &&
    e.fitDisposition.toNat ≤ 1 && e.unfitDisposition.toNat ≤ 1 && e.combine.toNat ≤ 1

/-- R4: a strap size of 0 is stored as 100, every other field as given. -/
def DenomEntry.stored (e : DenomEntry) : DenomEntry :=
  if e.strap = 0 then { e with strap := 100 } else e

/-- R4: Set Denomination. -/
def setDenominationRule : RequestRule := fun body s =>
  match readDenomination body with
  | none => refuse s .badLength
  | some d =>
    if hk : d.currency.toNat < 4 then
      if hi : d.index.toNat < 12 then
        if !d.entry.requestable then refuse s .badField
        else if !s.configFault ∧ s.setInUse ⟨d.currency.toNat, hk⟩ then refuse s .inUse
        else
          let s' := { s with
            config := s.config.setEntry ⟨d.currency.toNat, hk⟩ ⟨d.index.toNat, hi⟩ d.entry.stored }.storeCheckWord
          accept s' s'.wordImage
      else refuse s .badField
    else refuse s .badField

/-! ### Set Limits (R8, R9) -/

/-- R8, R9: the five limits are written, the check word is stored, running idle timers and the stop thresholds
are judged at once. -/
def State.writeLimits (s : State) (l : Limits) : State :=
  { s with config := { s.config with limits := l } }.storeCheckWord.expireIdle.retestThresholds

/-- R8: Set Limits. -/
def setLimitsRule : RequestRule := fun body s =>
  match readLimits body with
  | none => refuse s .badLength
  | some l =>
    if !l.inRange then refuse s .badField
    else
      let s' := s.writeLimits l
      accept s' s'.wordImage

/-! ### Set Pace Curve (R10) -/

/-- R10: a point above 1,000 is stored as 1,000. -/
def Curve.stored (c : Curve) : Curve :=
  { c with points := c.points.map fun x => if 1000 < x.toNat then 1000 else x }

/-- R10: Set Pace Curve. -/
def setPaceCurveRule : RequestRule := fun body s =>
  match readCurve body with
  | none => refuse s .badLength
  | some c =>
    if 4 < c.hysteresis.toNat then refuse s .badField
    else
      let s' := ({ s with config := { s.config with curve := c.stored } }.storeCheckWord).repace none
      accept s' s'.wordImage

/-! ### Reading, committing and initializing (R11, R16, R17) -/

/-- R11: the twelve entry images of a set. -/
def Configuration.setImage (c : Configuration) (k : SetId) : List Byte :=
  (List.finRange 12).flatMap fun i => (c.entry k i).image

/-- R11: Read Configuration. -/
def readConfigurationRule : RequestRule := fun body s =>
  match readOneByte body with
  | none => refuse s .badLength
  | some sel =>
    if hk : sel.toNat < 4 then accept s (s.config.setImage ⟨sel.toNat, hk⟩)
    else if sel = 4 then
      accept s (s.config.limits.image ++ s.config.curve.image ++ wordBytes s.checkWord ++
        wordBytes s.config.computedWord ++ [boolByte s.configFault])
    else refuse s .badField

/-- R16: Commit Configuration. -/
def commitConfigurationRule : RequestRule := fun body s =>
  match readNothing body with
  | none => refuse s .badLength
  | some _ =>
    if !s.config.inRange then refuse s .badField
    else
      let s' := { s.storeCheckWord with configFault := false }
      accept s' s'.wordImage

/-- R17: every slot is FREE and no bundle record exists. -/
def State.tablesEmpty (s : State) : Bool :=
  s.records.toList.all Option.isNone && !s.anyBundle (fun _ => true) && s.waiting.isEmpty && s.queue.isEmpty

/-- R17: the whole configuration and the next bundle number return to their defaults, and the effects reach the
stop sets and the pace. -/
def State.initializeStore (s : State) : State :=
  ({ s with
      config := Configuration.initial
      nextNumber := 1
      configFault := false }.storeCheckWord.retestThresholds).repace none

/-- R17: Initialize Store. -/
def initializeStoreRule : RequestRule := fun body s =>
  match readNothing body with
  | none => refuse s .badLength
  | some _ =>
    if !s.tablesEmpty then refuse s .inUse
    else
      let s' := s.initializeStore
      accept s' s'.wordImage

/-! ### The commands -/

def execSetDenomination (body : List Byte) (s : State) : Host.Outcome State Fault Refusal :=
  execRequest setDenominationCode setDenominationRule body s

def execSetLimits (body : List Byte) (s : State) : Host.Outcome State Fault Refusal :=
  execRequest setLimitsCode setLimitsRule body s

def execSetPaceCurve (body : List Byte) (s : State) : Host.Outcome State Fault Refusal :=
  execRequest setPaceCurveCode setPaceCurveRule body s

def execReadConfiguration (body : List Byte) (s : State) : Host.Outcome State Fault Refusal :=
  execRequest readConfigurationCode readConfigurationRule body s

def execCommitConfiguration (body : List Byte) (s : State) : Host.Outcome State Fault Refusal :=
  execRequest commitConfigurationCode commitConfigurationRule body s

def execInitializeStore (body : List Byte) (s : State) : Host.Outcome State Fault Refusal :=
  execRequest initializeStoreCode initializeStoreRule body s

end Sys2Proof.Machine
end

