-- ==== Sys2Proof/Machine/Deposits.lean ====
section
/-! DEFINITION. The host requests on deposit records (chapter 2): Declare, Amend, Cancel, Look Up, List, Hold,
Release, Seal, Retire. -/

namespace Sys2Proof.Machine

/-! ### Breakdowns (R22, R31) -/

/-- R31 row 3: an index 0 to 11, enabled where the set is read, and a count of at least 1. -/
def BreakdownField.valid (enabled : DenomIndex → Bool) (e : BreakdownField) : Bool :=
  1 ≤ e.count.toNat && (if h : e.index.toNat < 12 then enabled ⟨e.index.toNat, h⟩ else false)

/-- R31 row 3: every entry is valid, and no index appears twice. -/
def breakdownValid (enabled : DenomIndex → Bool) (l : List BreakdownField) : Bool :=
  l.all (BreakdownField.valid enabled) && (l.map (·.index)).Nodup

/-- R31: a breakdown as stored, in ascending index order. -/
def sortedBreakdown (l : List BreakdownField) : List BreakdownEntry :=
  (List.finRange 12).filterMap fun i =>
    (l.find? fun e => e.index.toNat = i.val).map fun e => { index := i, count := e.count.toNat }

/-- R22: the sum of count times face value. -/
def breakdownSum (face : DenomIndex → Nat) (l : List BreakdownEntry) : Nat :=
  (l.map fun e => e.count * face e.index).sum

/-- R22, R31 test 6: a breakdown, where given, sums to the declared total. -/
def breakdownAgrees (face : DenomIndex → Nat) (total : Nat) (l : List BreakdownEntry) : Bool :=
  l.isEmpty || breakdownSum face l = total

/-- The face values of a set. -/
def Configuration.face (c : Configuration) (k : SetId) (i : DenomIndex) : Nat :=
  (c.entry k i).face.toNat

/-! ### Declare (R31) -/

/-- R31: the record that Declare writes. -/
def DepositRecord.declared (d : Declaration) (k : SetId) (mode : CustodyMode) : DepositRecord :=
  { reference := d.reference
    customer := d.customer
    currency := k
    custody := mode
    state := .declared
    declaredTotal := d.total.toNat
    breakdown := sortedBreakdown d.breakdown
    cells := Vector.replicate 12 {}
    unrecognized := 0
    returned := 0
    lost := 0
    collected := 0
    voided := 0
    feeding := Vector.replicate 4 false
    pending := 0
    reopens := 0
    holds := {}
    flags := {}
    result := none
    idleSince := none }

/-- The set a byte names. -/
def setOf (b : Byte) : Option SetId :=
  if h : b.toNat < 4 then some ⟨b.toNat, h⟩ else none

/-- The custody mode a byte names (R177). -/
def custodyOf (b : Byte) : Option CustodyMode :=
  if b = 0 then some .segregated else if b = 1 then some .pooled else none

/-- R31: Declare. -/
def declareRule : RequestRule := fun body s =>
  match readDeclaration body with
  | none => refuse s .badLength
  | some d =>
    if s.configFault then refuse s .configFault
    else match setOf d.currency, custodyOf d.custody with
      | some k, some mode =>
        if d.reference = 0 ∨ !breakdownValid (fun i => (s.config.entry k i).enabled) d.breakdown then
          refuse s .badField
        else if (s.slotOf? d.reference).isSome then refuse s .duplicate
        else match s.freeSlot? with
          | none => refuse s .tableFull
          | some i =>
            let r := DepositRecord.declared d k mode
            if breakdownAgrees (s.config.face k) r.declaredTotal r.breakdown then
              accept (s.setRecord i (some r)) [natByte i.val]
            else refuse s .breakdownTotal
      | _, _ => refuse s .badField

/-! ### Amend (R32) -/

/-- R32: the record after an accepted Amend. -/
def DepositRecord.amend (r : DepositRecord) (total : Nat) (l : List BreakdownEntry) (now : Nat) :
    DepositRecord :=
  let r' := { r with declaredTotal := total, breakdown := l }
  match r.state with
  | .declared | .counting | .held | .sealed => r'
  | .balanced | .discrepant =>
    if r.holdsCredit then { r' with state := .counting, result := none }.startIdle now
    else { r' with state := .declared, result := none }

/-- R32: Amend. -/
def amendRule : RequestRule := fun body s =>
  match readAmendment body with
  | none => refuse s .badLength
  | some d =>
    if s.configFault then refuse s .configFault
    else if d.reference = 0 ∨ !breakdownValid (fun _ => true) d.breakdown then refuse s .badField
    else match s.slotOf? d.reference with
      | none => refuse s .notFound
      | some i =>
        match s.record? i with
        | none => refuse s .notFound
        | some r =>
          let l := sortedBreakdown d.breakdown
          if !breakdownValid (fun i => (s.entryFor r i).enabled) d.breakdown then refuse s .badField
          else if r.state = .sealed then refuse s .sealed
          else if !breakdownAgrees (s.config.face r.currency) d.total.toNat l then refuse s .breakdownTotal
          else
            let r' := r.amend d.total.toNat l s.now
            accept (s.setRecord i (some r')) [recordStateByte (some r'.state)]

/-! ### Requests that name a record by its reference (R19) -/

/-- R19: a request on the record of a reference: reference 0 is BAD_FIELD, an absent one NOT_FOUND. -/
def withRecord (s : State) (ref : Reference) (act : Slot → DepositRecord → State × Reply) : State × Reply :=
  if ref = 0 then refuse s .badField
  else match s.slotOf? ref with
    | none => refuse s .notFound
    | some i =>
      match s.record? i with
      | none => refuse s .notFound
      | some r => act i r

/-- R33: Cancel. -/
def cancelRule : RequestRule := fun body s =>
  match readReference body with
  | none => refuse s .badLength
  | some ref => withRecord s ref fun i r =>
    if r.state = .declared ∧ !r.holdsCredit ∧ r.pending = 0 then accept (s.setRecord i none) []
    else refuse s .wrongState

/-- R34: Look Up. -/
def lookUpRule : RequestRule := fun body s =>
  match readLookUp body with
  | none => refuse s .badLength
  | some d =>
    if d.selector = 0 then withRecord s d.value fun i r => accept s (r.image i s.now)
    else if d.selector = 1 then
      if h : d.value.toNat < 128 then
        match s.record? ⟨d.value.toNat, h⟩ with
        | none => accept s [natByte d.value.toNat, recordStateByte none]
        | some r => accept s (r.image ⟨d.value.toNat, h⟩ s.now)
      else refuse s .badField
    else refuse s .badField

/-- R35: the filter matches a state; an empty filter matches all six. -/
def filterMatches (filter : Byte) (st : RecordState) : Bool :=
  filter = 0 || filter.getLsbD (recordStateByte (some st)).toNat

/-- R35: the slots from `start` whose records match, in slot order. -/
def State.listed (s : State) (filter : Byte) (start : Nat) : List (Slot × DepositRecord) :=
  (List.finRange 128).filterMap fun i =>
    match s.record? i with
    | none => none
    | some r => if start ≤ i.val ∧ filterMatches filter r.state then some (i, r) else none

/-- R35: the continuation slot: after the last of 16 entries below slot 127, otherwise END. -/
def continuation (l : List (Slot × DepositRecord)) : Byte :=
  match l.getLast? with
  | some (i, _) => if l.length = Config.listLimit ∧ i.val < 127 then natByte (i.val + 1) else 0xFF
  | none => 0xFF

/-- R35, R174: List. A filter with bit 0 or bit 7 names no record state. -/
def listRule : RequestRule := fun body s =>
  match readListFields body with
  | none => refuse s .badLength
  | some d =>
    if d.filter.getLsbD 0 ∨ d.filter.getLsbD 7 ∨ 127 < d.start.toNat then refuse s .badField
    else
      let l := (s.listed d.filter d.start.toNat).take Config.listLimit
      accept s ([natByte l.length, continuation l] ++
        l.flatMap fun e =>
          natByte e.1.val :: (bytesOf 4 e.2.reference.toNat ++ [recordStateByte (some e.2.state)]))

/-- The state and hold reasons that the Hold response carries (R37). -/
def State.holdImage (s : State) (i : Slot) : List Byte :=
  match s.record? i with
  | none => []
  | some r => [recordStateByte (some r.state), r.holds.byte]

/-- R37: Hold. -/
def holdRule : RequestRule := fun body s =>
  match readReference body with
  | none => refuse s .badLength
  | some ref => withRecord s ref fun i r =>
    if r.state = .sealed then refuse s .sealed
    else
      let s' := s.holdRecord true i .host
      accept s' (s'.holdImage i)

/-- R39: the released record: COUNTING where it holds a credit, is fed or has notes pending, otherwise
DECLARED. -/
def DepositRecord.release (r : DepositRecord) (now : Nat) : DepositRecord :=
  if r.holdsCredit ∨ !r.feedingEmpty ∨ r.pending ≠ 0 then
    { r with state := .counting, holds := {} }.startIdle now
  else { r with state := .declared, holds := {} }

/-- R39: Release. -/
def releaseRule : RequestRule := fun body s =>
  match readReference body with
  | none => refuse s .badLength
  | some ref => withRecord s ref fun i r =>
    if r.state = .held then
      let r' := r.release s.now
      accept (r.members.foldl (fun t p => t.setHoldStop true p false) (s.setRecord i (some r')))
        [recordStateByte (some r'.state)]
    else refuse s .wrongState

/-- R46: Seal. -/
def sealRule : RequestRule := fun body s =>
  match readSeal body with
  | none => refuse s .badLength
  | some d =>
    if 1 < d.accept.toNat then refuse s .badField
    else withRecord s d.reference fun i r =>
      if r.state = .balanced ∨ r.state = .discrepant ∧ d.accept = 1 then
        accept (s.setRecord i (some { r with state := .sealed })) []
      else refuse s .wrongState

/-- R47: Retire. -/
def retireRule : RequestRule := fun body s =>
  match readReference body with
  | none => refuse s .badLength
  | some ref => withRecord s ref fun i r =>
    if r.state ≠ .sealed then refuse s .wrongState
    else if r.bandedTotal = r.collected + r.voided then accept (s.setRecord i none) []
    else refuse s .inBundle

/-! ### The commands -/

def execDeclare (body : List Byte) (s : State) : Host.Outcome State Fault Refusal :=
  execRequest declareCode declareRule body s

def execAmend (body : List Byte) (s : State) : Host.Outcome State Fault Refusal :=
  execRequest amendCode amendRule body s

def execCancel (body : List Byte) (s : State) : Host.Outcome State Fault Refusal :=
  execRequest cancelCode cancelRule body s

def execLookUp (body : List Byte) (s : State) : Host.Outcome State Fault Refusal :=
  execRequest lookUpCode lookUpRule body s

def execList (body : List Byte) (s : State) : Host.Outcome State Fault Refusal :=
  execRequest listCode listRule body s

def execHold (body : List Byte) (s : State) : Host.Outcome State Fault Refusal :=
  execRequest holdCode holdRule body s

def execRelease (body : List Byte) (s : State) : Host.Outcome State Fault Refusal :=
  execRequest releaseCode releaseRule body s

def execSealRecord (body : List Byte) (s : State) : Host.Outcome State Fault Refusal :=
  execRequest sealCode sealRule body s

def execRetire (body : List Byte) (s : State) : Host.Outcome State Fault Refusal :=
  execRequest retireCode retireRule body s

end Sys2Proof.Machine
end

