-- ==== Sys2Proof/Machine/Feeds.lean ====
section
/-! DEFINITION. Presence and feeds (chapters 3 and 8): Hello with its census, Feed Start, Feed End. -/

namespace Sys2Proof.Machine

/-! ### Feed Start (R41, R56 to R58) -/

/-- R54: a feed as it is created on a record. -/
def Feed.opened (i : Slot) (ref : Reference) (full : Bool) : Feed :=
  { slot := i
    reference := ref
    state := if full then .suspended else .active
    stop := { pocketFull := full }
    expected := 0
    reported := 0
    banded := 0
    suspect := 0
    returned := 0
    lost := 0
    jams := 0
    sinceJam := 0 }

/-- R40, R41: the record takes an accepted feed; a settled one reopens first. -/
def DepositRecord.takeFeed (r : DepositRecord) (p : PortId) : DepositRecord :=
  let r' := { r with feeding := r.feeding.set p.val true, idleSince := none }
  match r.state with
  | .declared => { r' with state := .counting }
  | .balanced | .discrepant => { r' with state := .counting, result := none, reopens := r.reopens + 1 }
  | .counting | .held | .sealed => r'

/-- R57: an accepted Feed Start. -/
def State.openFeed (s : State) (p : PortId) (i : Slot) (r : DepositRecord) : State :=
  let full := s.pocketFull p
  let f := Feed.opened i r.reference full
  let s1 := (s.setFeed p f).modPort p fun q => { q with refused := 0 }
  let s2 := (s1.setRecord i (some (r.takeFeed p))).send p (.feedAccept r.reference r.currency)
  s2.sendIf full p (.stop f.stop false)

/-- R58: a Feed Start refused UNKNOWN_REFERENCE, the fifth of which locks the port. -/
def State.refuseReference (s : State) (p : PortId) : State :=
  (s.send p (.feedRefuse .unknownReference)).modPort p fun q =>
    { q with
      refused := q.refused + 1
      state := if Config.refusedLimit ≤ q.refused + 1 then .locked .referenceAttempts else q.state }

/-- R56 tests 7 to 10, on the record that holds the reference. -/
def State.judgeFeed (s : State) (p : PortId) (i : Slot) (r : DepositRecord) : State :=
  if r.state = .held ∨ r.state = .sealed then s.send p (.feedRefuse .recordState)
  else if r.members.length = 4 then s.send p (.feedRefuse .feedLimit)
  else if (r.state = .balanced ∨ r.state = .discrepant) ∧ Config.reopenLimit ≤ r.reopens then
    (s.send p (.feedRefuse .reopenLimit)).holdRecord true i .reopenLimit
  else s.openFeed p i r

/-- R56: a Feed Start, tested in order. -/
def State.feedStart (s : State) (p : PortId) (ref : Reference) : State :=
  match (s.port p).state with
  | .down => s
  | .locked _ => s.send p (.feedRefuse .locked)
  | .feeding _ => s.send p (.feedRefuse .transportBusy)
  | .ready =>
    if s.warning then s.send p (.feedRefuse .power)
    else if s.configFault then s.send p (.feedRefuse .config)
    else if ref = 0 then s.refuseReference p
    else match s.slotOf? ref with
      | none => s.refuseReference p
      | some i =>
        match s.record? i with
        | none => s.refuseReference p
        | some r => s.judgeFeed p i r

/-- FEED_START (R56). -/
def execFeedStart (p : PortId) (ref : Reference) (s : State) : Host.Outcome State Fault Refusal :=
  .next (s.whenRunning fun s => s.feedStart p ref)

/-! ### Feed End (R61) -/

/-- R61: a Feed End, by the state of the port and its feed. -/
def State.feedEnd (s : State) (p : PortId) (count : Nat) : State :=
  match (s.port p).state with
  | .down => s
  | .ready | .locked _ => s.send p (.endRefused .noFeed)
  | .feeding f =>
    match f.state with
    | .jammed => s.send p (.endRefused .jammed)
    | .ending _ => s.send p (.endRefused .ending)
    | .active | .suspended => (s.setFeed p { f with state := .ending count }).completeEnd p

/-- FEED_END (R61). -/
def execFeedEnd (p : PortId) (count : BitVec 16) (s : State) : Host.Outcome State Fault Refusal :=
  .next (s.whenRunning fun s => s.feedEnd p count.toNat)

/-! ### The census (R84, R164, R165) -/

/-- The presence flag of a pocket (R179). -/
def present (presence : Byte) (k : Pocket) : Bool :=
  presence.getLsbD k.val

/-- R139 step 3, R68 step 3: the state that a bundle becomes UNCONFIRMED from. An UNCONFIRMED one keeps its
prior state; a COLLECTABLE one is bound to no pocket and is not reached. -/
def BundleState.unconfirm : BundleState → BundleState
  | .opened => .unconfirmed .opened
  | .filled => .unconfirmed .filled
  | .closing => .unconfirmed .closing
  | .completeWaiting => .unconfirmed .completeWaiting
  | .strapping => .unconfirmed .strapping
  | .collectable => .collectable
  | .unconfirmed q => .unconfirmed q

/-- R68 step 3: every bundle bound in the transport's sort pockets becomes UNCONFIRMED. -/
def State.unconfirmPort (s : State) (p : PortId) : State :=
  (portPlaces p).foldl (fun t pl => t.modBundle pl fun b => { b with state := b.state.unconfirm }) s

/-- R164: an UNCONFIRMED bundle is decided by its prior state and its pocket's presence flag. -/
def State.decide (s : State) (presence : Byte) (pl : Place) : State :=
  match s.bundle? pl with
  | none => s
  | some b =>
    match b.state with
    | .unconfirmed prior =>
      if present presence (placePocket pl) then
        match prior with
        | .opened | .filled => s.setBinding pl (.bound { b with state := .opened })
        | .closing => s.complete pl
        | .completeWaiting => s.setBinding pl (.bound { b with state := .completeWaiting })
        | .strapping =>
          (s.setBinding pl (.bound { b with state := .strapping })).send (placePort pl)
            (.strapOrder (placePocket pl) (b.number.getD 0))
      else
        match prior with
        | .opened | .filled | .closing | .completeWaiting => s.voidBundle pl
        | .strapping => s.lift pl
    | .opened | .filled | .closing | .completeWaiting | .strapping | .collectable => s

/-- R84, R165 step 2: a sort pocket that is not BOUND becomes BLOCKED where shown occupied, otherwise UNBOUND. -/
def State.blockPocket (s : State) (presence : Byte) (pl : Place) : State :=
  match s.binding pl with
  | .bound _ => s
  | .unbound | .blocked => s.setBinding pl (if present presence (placePocket pl) then .blocked else .unbound)

/-- R165 steps 1 to 3: the census of a transport's sort pockets. -/
def State.census (s : State) (p : PortId) (presence : Byte) : State :=
  let s1 := (portPlaces p).foldl (fun t pl => t.decide presence pl) s
  let s2 := (portPlaces p).foldl (fun t pl => t.blockPocket presence pl) s1
  s2.promote

/-! ### Hello (R52, R53, R68, R69) -/

/-- R53: the P0 and P1 counts and marks as a Hello sets them. The in-flight counts are 0 there, the entries
having been lost before. -/
def Port.resetStacks (q : Port) (presence : Byte) : Port :=
  { q with
    p0 := { fill := 0, inFlight := 0, mark := present presence 0 }
    p1 := { fill := 0, inFlight := 0, mark := present presence 1 } }

/-- R68 step 1: the window is lost and a feed is aborted with cause transport restart, with nothing said to the
restarted transport. -/
def State.restartLosses (s : State) (p : PortId) : State :=
  (s.loseWindow false none p).abortFeed true p .transport

/-- R52, R68 step 4: the port state after a Hello. -/
def PortState.afterHello : PortState → PortState
  | .down | .ready => .ready
  | .feeding _ => .ready
  | .locked cause => .locked cause

/-- R52, R68, R165: a Hello taken by a port in any state: losses and abort, counts and marks, census, and the
governor's judgement, of which the port hears in its Hello Answer. The Hello Answer stands before the Strap
Orders of the census; a Strap Order of the losses is not sent (R165). -/
def State.hello (s : State) (p : PortId) (presence : Byte) : State :=
  let said := (s.port p).out
  let s1 := (s.restartLosses p).modPort p fun q =>
    { q.resetStacks presence with state := q.state.afterHello, out := [] }
  let s2 := ((s1.unconfirmPort p).census p presence).judgeBacklog s.backlog (some p)
  s2.modPort p fun q => { q with out := said ++ OutMessage.helloAnswer s2.pace :: q.out }

/-- HELLO (R52). -/
def execHello (p : PortId) (presence : Byte) (s : State) : Host.Outcome State Fault Refusal :=
  .next (s.whenRunning fun s => s.hello p presence)

end Sys2Proof.Machine
end

