-- ==== Sys2Proof/Machine/Notes.lean ====
section
/-! DEFINITION. The note path (chapters 4 and 5): Note Report with the Router's decision, and Stacked. -/

namespace Sys2Proof.Machine

/-- The verdicts of the recognizer (R179). -/
inductive Verdict where
  | genuine
  | suspect
  | unreadable
  deriving DecidableEq, Repr

/-- A Note Report as the Router takes it (3.1). -/
structure Report where
  seq : Byte
  index : Option DenomIndex
  fitness : Fitness
  verdict : Verdict
  deriving DecidableEq, Repr

/-- R179, R180: a Note Report from its bytes; `none` where a field has no meaning. -/
def readReport (seq index fitness verdict : Byte) : Option Report :=
  if noteFieldsValid index fitness verdict then
    some
      { seq := seq
        index := if h : index.toNat < 12 then some ⟨index.toNat, h⟩ else none
        fitness := if fitness = 0 then .fit else .unfit
        verdict := if verdict = 0 then .genuine else if verdict = 1 then .suspect else .unreadable }
  else none

/-! ### The order test (R74, R75) -/

/-- R75: the window holds 8 entries, or one with the report's sequence. -/
def Port.windowRefuses (q : Port) (seq : Byte) : Bool :=
  Config.windowCapacity ≤ q.window.length || q.window.any fun e => e.seq = seq

/-- R74: the report fails the order test of a feed. -/
def Port.orderFails (q : Port) (f : Feed) (seq : Byte) : Bool :=
  match f.state with
  | .active | .suspended => q.windowRefuses seq || seq ≠ f.expected
  | .ending _ => true
  | .jammed => q.windowRefuses seq

/-! ### Making the route (R88 to R90) -/

/-- R88 step 3: the feed's reported count, and its expected sequence but in JAMMED (R76). -/
def Feed.route (f : Feed) : Feed :=
  { f with
    reported := bump f.reported
    expected := match f.state with
      | .jammed => f.expected
      | .active | .suspended | .ending _ => f.expected + 1 }

/-- R88 steps 1 and 2: the entry joins the window's tail, and the Pocket Order is sent. -/
def State.orderPocket (s : State) (p : PortId) (n : Report) (k : Pocket) (i : Option Slot) : State :=
  let e : Entry :=
    { seq := n.seq, pocket := k, slot := i, index := n.index, fitness := n.fitness,
      deadline := s.now + s.flightLimit }
  (s.modPort p fun q => { q with window := q.window ++ [e] }).send p (.pocketOrder n.seq k)

/-- R88, R91: a note routed to P0 or P1: entry, Pocket Order, the feed's counts, the pocket's in-flight count,
and the pocket-full test after the Pocket Order (R71, R92). -/
def State.routeStack (s : State) (p : PortId) (n : Report) (k : Pocket) (i : Option Slot) : State :=
  ((((s.orderPocket p n k i).modFeed p Feed.route).modPort p fun q =>
    q.modStack k fun c => { c with inFlight := c.inFlight + 1 })).retestPocketFull true p

/-- R89: a reservation in the bundle, which becomes FILLED when its counts reach the strap size. -/
def Bundle.reserve (b : Bundle) (i : Slot) (ref : Reference) : Bundle :=
  let b1 := { b with inFlight := b.inFlight + 1 }
  let b2 :=
    if b.contributions.any fun c => c.slot = i then
      b1.modContribution i fun c => { c with reserved := c.reserved + 1 }
    else { b1 with
      contributions := b.contributions ++ [{ slot := i, reference := ref, fit := 0, unfit := 0, reserved := 1 }] }
  if b2.stacked + b2.inFlight = b2.strap then { b2 with state := .filled } else b2

/-- R88 to R90: a note routed to a sort pocket, with its reservation and the record's pending count. -/
def State.routeSort (s : State) (p : PortId) (n : Report) (pl : Place) (i : Slot) (r : DepositRecord) : State :=
  (((s.orderPocket p n (placePocket pl) (some i)).modFeed p Feed.route).modBundle pl fun b =>
    b.reserve i r.reference).modRecord i fun r => { r with pending := r.pending + 1 }

/-! ### The pocket search (R83 to R87) -/

/-- R21, R83: the custody group of a record's notes. -/
def custodyGroup (i : Slot) (r : DepositRecord) : CustodyGroup :=
  match r.custody with
  | .segregated => .slot i
  | .pooled => .pool

/-- R85: a bound bundle is eligible for a note of a key and a record. -/
def Bundle.eligible (b : Bundle) (key : BundleKey) (i : Slot) : Bool :=
  b.key = key && b.state = .opened && b.stacked + b.inFlight < b.strap &&
    ((b.contributions.any fun c => c.slot = i) || b.contributions.length < Config.contributionCapacity)

/-- R86: a new bundle at its binding. -/
def Bundle.fresh (key : BundleKey) (pl : Place) (strap : Nat) : Bundle :=
  { key := key
    place := pl
    strap := strap
    stacked := 0
    inFlight := 0
    contributions := []
    short := false
    tainted := false
    state := .opened
    number := none }

/-- R85: the first eligible sort pocket of the transport. -/
def State.eligiblePlace? (s : State) (p : PortId) (key : BundleKey) (i : Slot) : Option Place :=
  (portPlaces p).find? fun pl =>
    match s.bundle? pl with
    | some b => b.eligible key i
    | none => false

/-- R86: the lowest-numbered UNBOUND sort pocket of the transport. -/
def State.freePlace? (s : State) (p : PortId) : Option Place :=
  (portPlaces p).find? fun pl => s.binding pl = .unbound

/-- R85 to R87: test 8: an eligible bundle, else a new one in a free pocket, else P0. -/
def State.searchPocket (s : State) (p : PortId) (n : Report) (key : BundleKey) (i : Slot) (r : DepositRecord)
    (strap : Nat) : State :=
  match s.eligiblePlace? p key i with
  | some pl => s.routeSort p n pl i r
  | none =>
    match s.freePlace? p with
    | some pl => (s.setBinding pl (.bound (Bundle.fresh key pl strap))).routeSort p n pl i r
    | none => s.routeStack p n 0 (some i)

/-- R82: test 7, the cell limit. -/
def DepositRecord.cellLimited (r : DepositRecord) (k : DenomIndex) (fitness : Fitness) : Bool :=
  Config.countLimit ≤ r.cell k fitness + r.pending

/-- R79 to R82: tests 4 to 8 of R71, under an ACTIVE feed on the record `r` of slot `i`. -/
def State.routeActive (s : State) (p : PortId) (n : Report) (i : Slot) (r : DepositRecord) : State :=
  if n.verdict = .suspect then s.routeStack p n 1 (some i)
  else match n.index with
    | none => s.routeStack p n 0 (some i)
    | some k =>
      let e := s.entryFor r k
      if n.verdict = .unreadable ∨ !e.enabled ∨ !e.sorts n.fitness then s.routeStack p n 0 (some i)
      else if r.cellLimited k n.fitness then
        (s.modRecord i fun r => { r with flags := { r.flags with cellLimit := true } }).routeStack p n 0 (some i)
      else
        s.searchPocket p n
          { currency := r.currency, index := k, fitness := e.bundleFitness n.fitness, group := custodyGroup i r }
          i r e.strap.toNat

/-- R71: the decision on a well-formed report of a port that is not DOWN. -/
def State.route (s : State) (p : PortId) (n : Report) : State :=
  match s.feed? p with
  | none => if (s.port p).windowRefuses n.seq then s else s.routeStack p n 0 none
  | some f =>
    if (s.port p).orderFails f n.seq then s.takeJam true none p
    else match f.state with
      | .active =>
        match s.record? f.slot with
        | some r => s.routeActive p n f.slot r
        | none => s.routeStack p n 0 (some f.slot)
      | .suspended | .jammed | .ending _ => s.routeStack p n 0 (some f.slot)

/-- R52, R71, R180: a Note Report; in DOWN it is discarded, and a malformed one is discarded as R49 gives. -/
def State.noteReport (s : State) (p : PortId) (seq index fitness verdict : Byte) : State :=
  if (s.port p).isDown then s
  else match readReport seq index fitness verdict with
    | none => s.discardMessage p
    | some n => s.route p n

/-- NOTE_REPORT (R71). -/
def execNoteReport (p : PortId) (seq index fitness verdict : Byte) (s : State) :
    Host.Outcome State Fault Refusal :=
  .next (s.whenRunning fun s => s.judged fun s => s.noteReport p seq index fitness verdict)

/-! ### Confirmation (R97 to R101) -/

/-- The cells with the banded cell of an index and a fitness one higher (R23). -/
def DepositRecord.creditBanded (r : DepositRecord) (k : Option DenomIndex) (fitness : Fitness) : DepositRecord :=
  match k with
  | none => { r with pending := r.pending - 1 }
  | some k =>
    let c := r.cells[k.val]
    let c' := match fitness with
      | .fit => { c with fit := c.fit + 1 }
      | .unfit => { c with unfit := c.unfit + 1 }
    { r with cells := r.cells.set k.val c', pending := r.pending - 1 }

/-- R97: the contribution's and the bundle's side of a confirmation. -/
def Bundle.confirm (b : Bundle) (i : Option Slot) (fitness : Fitness) : Bundle :=
  let b' := { b with stacked := b.stacked + 1, inFlight := b.inFlight - 1 }
  match i with
  | none => b'
  | some i => b'.modContribution i fun c =>
    match fitness with
    | .fit => { c with fit := c.fit + 1, reserved := c.reserved - 1 }
    | .unfit => { c with unfit := c.unfit + 1, reserved := c.reserved - 1 }

/-- R101 step 1: the bundle completes where a confirmation has drained it. -/
def State.completeIfDrained (s : State) (pl : Place) : State :=
  match s.bundle? pl with
  | none => s
  | some b =>
    if b.inFlight = 0 ∧ (b.state = .filled ∨ b.state = .closing ∧ 0 < b.stacked) then s.complete pl else s

/-- R97, R101 step 1: a confirmation of an entry for the sort pocket `pl`. -/
def State.confirmSort (s : State) (p : PortId) (pl : Place) (e : Entry) : State :=
  let s1 := match e.slot with
    | none => s
    | some i =>
      (s.modRecord i fun r => r.creditBanded e.index e.fitness).modFeed p fun f =>
        { f with banded := bump f.banded }.confirmed
  (s1.modBundle pl fun b => b.confirm e.slot e.fitness).completeIfDrained pl

/-- R24, R98: the record's side of a confirmed suspect note; `k` is its index where that is enabled. -/
def DepositRecord.creditSuspect (r : DepositRecord) (k : Option DenomIndex) : DepositRecord :=
  match k with
  | none =>
    { r with
      unrecognized := bump r.unrecognized
      flags := { r.flags with saturated := r.flags.saturated || atLimit r.unrecognized } }
  | some k =>
    let c := r.cells[k.val]
    { r with
      cells := r.cells.set k.val { c with suspect := bump c.suspect }
      flags := { r.flags with saturated := r.flags.saturated || atLimit c.suspect } }

/-- The index of an entry where it names a denomination enabled in the record's set (R98). -/
def State.enabledIndex (s : State) (r : DepositRecord) (k : Option DenomIndex) : Option DenomIndex :=
  k.filter fun k => (s.entryFor r k).enabled

/-- R25, R99: the record's side of a confirmed returned note. -/
def DepositRecord.creditReturned (r : DepositRecord) : DepositRecord :=
  { r with
    returned := bump r.returned
    flags := { r.flags with saturated := r.flags.saturated || atLimit r.returned } }

/-- R98, R99: a confirmation of an entry for P0 or P1. -/
def State.confirmStack (s : State) (p : PortId) (e : Entry) : State :=
  let s1 := s.modPort p fun q => q.modStack e.pocket fun c =>
    { c with fill := bump c.fill, inFlight := c.inFlight - 1 }
  match e.slot with
  | none => s1
  | some i =>
    if e.pocket = 1 then
      (s1.modRecord i fun r => r.creditSuspect (s.enabledIndex r e.index)).modFeed p fun f =>
        { f with suspect := bump f.suspect }.confirmed
    else
      (s1.modRecord i DepositRecord.creditReturned).modFeed p fun f =>
        { f with returned := bump f.returned }.confirmed

/-- R96: a confirmation removes the entry and credits it; then the governor judges (R137) and the end may
complete (R101). -/
def State.confirm (s : State) (p : PortId) (e : Entry) : State :=
  let s1 := s.modPort p fun q => { q with window := q.window.filter fun x => x.seq ≠ e.seq }
  let s2 := match placeOf p e.pocket with
    | none => s1.confirmStack p e
    | some pl => s1.confirmSort p pl e
  (s2.judgeBacklog s.backlog none).completeEnd p

/-! ### Misrouted and late confirmations (R102, R103) -/

/-- R102: the entry is lost, its note is a stray where it landed, and the feed, if any, jams. -/
def State.misroute (s : State) (p : PortId) (e : Entry) (k : Pocket) : State :=
  ((s.loseEntry true none p e).stray p k).takeJam true none p

/-- R96: a Stacked on a port that is not DOWN. -/
def State.stacked (s : State) (p : PortId) (seq : Byte) (k : Pocket) : State :=
  match (s.port p).window.find? fun e => e.seq = seq with
  | none => s.stray p k
  | some e =>
    if e.pocket = k then s.confirm p e
    else s.judged fun s => s.misroute p e k

/-- R96: a Stacked; in DOWN it is discarded, and one that names no pocket is discarded as R49 gives. -/
def State.stackedMessage (s : State) (p : PortId) (seq pocket : Byte) : State :=
  if (s.port p).isDown then s
  else match pocketOf pocket with
    | none => s.judged fun s => s.discardMessage p
    | some k => s.stacked p seq k

/-- STACKED (R96). -/
def execStacked (p : PortId) (seq pocket : Byte) (s : State) : Host.Outcome State Fault Refusal :=
  .next (s.whenRunning fun s => s.stackedMessage p seq pocket)

end Sys2Proof.Machine
end

