-- ==== Sys2Proof/Machine/Jams.lean ====
section
/-! DEFINITION. Jams, flight expiries, cleared pockets and discarded messages (chapters 3 and 5). -/

namespace Sys2Proof.Machine

/-! ### Jam and Jam Cleared (R108, R112) -/

/-- JAM (R108): the jam is not declared by the CT-4, so it sends no Stop. -/
def execJam (p : PortId) (s : State) : Host.Outcome State Fault Refusal :=
  .next (s.whenRunning fun s => s.judged fun s => s.takeJam false none p)

/-- R112: the feed leaves JAMMED with its expected sequence at 0: ACTIVE with Resume, or SUSPENDED with Stop. -/
def State.leaveJam (s : State) (p : PortId) : State :=
  match s.feed? p with
  | none => s
  | some f =>
    if f.stop.isEmpty then (s.setFeed p { f with state := .active, expected := 0 }).send p .resume
    else (s.setFeed p { f with state := .suspended, expected := 0 }).send p (.stop f.stop false)

/-- R112: Jam Cleared, which is ignored unless the feed is JAMMED. -/
def State.jamCleared (s : State) (p : PortId) : State :=
  match s.feed? p with
  | none => s
  | some f =>
    match f.state with
    | .active | .suspended | .ending _ => s
    | .jammed => (s.loseWindow true none p).leaveJam p

/-- JAM_CLEARED (R112). -/
def execJamCleared (p : PortId) (s : State) : Host.Outcome State Fault Refusal :=
  .next (s.whenRunning fun s => s.judged fun s => s.jamCleared p)

/-! ### Flight expiry (R105) -/

/-- R105: the flight of the entry with sequence `seq` expires: a jam with cause TIMEOUT on a feed, otherwise the
entry alone is lost. An entry no longer in the window has no expiry. -/
def State.flightExpiry (s : State) (p : PortId) (seq : Byte) : State :=
  match (s.port p).window.find? fun e => e.seq = seq with
  | none => s
  | some e =>
    let s' := s.clockAtLeast e.deadline
    match s'.feed? p with
    | some _ => s'.takeJam true none p
    | none => s'.loseEntry true none p e

/-- FLIGHT_EXPIRY (R105). -/
def execFlightExpiry (p : PortId) (seq : Byte) (s : State) : Host.Outcome State Fault Refusal :=
  .next (s.whenRunning fun s => s.judged fun s => s.flightExpiry p seq)

/-! ### Pocket Cleared (R93, R113, R114) -/

/-- R93: P0 or P1 has been emptied. -/
def State.clearStack (s : State) (p : PortId) (k : Pocket) : State :=
  (s.modPort p fun q => q.modStack k fun c => { c with fill := 0, mark := false }).retestPocketFull true p

/-- R114: the stack of a bundle has been pulled unstrapped: a jam where notes are in flight to it, and then the
bundle is voided, with promotion where the head of the waiting list is gone (R127). -/
def State.pulled (s : State) (pl : Place) (b : Bundle) : State :=
  let s1 := if b.inFlight = 0 then s else s.takeJam true (some pl) (placePort pl)
  (s1.voidBundle pl).promote

/-- R113: a sort pocket has been emptied, by its binding and the state of its bundle. An UNCONFIRMED bundle is
decided as a census with its stack absent decides it. -/
def State.clearSort (s : State) (pl : Place) : State :=
  match s.binding pl with
  | .unbound => s
  | .blocked => s.setBinding pl .unbound
  | .bound b =>
    match b.state with
    | .strapping => s.lift pl
    | .opened | .filled | .closing | .completeWaiting => s.pulled pl b
    | .unconfirmed _ => (s.decide 0 pl).promote
    | .collectable => s

/-- R52, R93, R113: Pocket Cleared; in DOWN it is discarded, and one that names no pocket is discarded as R49
gives. -/
def State.pocketCleared (s : State) (p : PortId) (pocket : Byte) : State :=
  if (s.port p).isDown then s
  else match pocketOf pocket with
    | none => s.discardMessage p
    | some k =>
      match placeOf p k with
      | none => s.clearStack p k
      | some pl => s.clearSort pl

/-- POCKET_CLEARED (R113). -/
def execPocketCleared (p : PortId) (pocket : Byte) (s : State) : Host.Outcome State Fault Refusal :=
  .next (s.whenRunning fun s => s.judged fun s => s.pocketCleared p pocket)

/-! ### Discarded messages (R49) -/

/-- R49: a message with a line error, or one that `readMessage` does not read, is discarded. -/
def execDiscard (p : PortId) (s : State) : Host.Outcome State Fault Refusal :=
  .next (s.whenRunning fun s => s.judged fun s => s.discardMessage p)

/-- DISCARDED_MESSAGE (R49): the port judges the message as the line delivered it. One that is not to be
discarded is taken as what it spells (DESIGN CHOICE, log 6). -/
def execDiscardedMessage (p : PortId) (type : Byte) (body : List Byte) (lineError : Bool) (s : State) :
    Host.Outcome State Fault Refusal :=
  if lineError then execDiscard p s
  else match readMessage p type body with
    | some (.hello p presence) => execHello p presence s
    | some (.feedStart p reference) => execFeedStart p reference s
    | some (.noteReport p seq index fitness verdict) => execNoteReport p seq index fitness verdict s
    | some (.stacked p seq pocket) => execStacked p seq pocket s
    | some (.jam p) => execJam p s
    | some (.jamCleared p) => execJamCleared p s
    | some (.feedEnd p count) => execFeedEnd p count s
    | some (.pocketCleared p pocket) => execPocketCleared p pocket s
    | _ => execDiscard p s

end Sys2Proof.Machine
end

