-- ==== Sys2Proof/Machine/PartRequests.lean ====
section
/-! DEFINITION. The host requests on the part as a whole: Read Status (R175), Clear Causes (R162), Release
Transport (R67). -/

namespace Sys2Proof.Machine

/-- R175: Read Status. -/
def readStatusRule : RequestRule := fun body s =>
  match readNothing body with
  | none => refuse s .badLength
  | some _ => accept s s.statusImage

/-- R162: the named flags cleared. -/
def Causes.clear (c : Causes) (named : Byte) : Causes :=
  { powerUp := c.powerUp && !named.getLsbD 0
    resetLine := c.resetLine && !named.getLsbD 1
    powerWarning := c.powerWarning && !named.getLsbD 2 }

/-- R162: Clear Causes. -/
def clearCausesRule : RequestRule := fun body s =>
  match readOneByte body with
  | none => refuse s .badLength
  | some named =>
    if 7 < named.toNat then refuse s .badField
    else accept { s with causes := s.causes.clear named } [(s.causes.clear named).byte]

/-- R67: a released port: unlocked, both counts 0, its feed as it was. -/
def Port.release (q : Port) : Port :=
  { q with
    refused := 0
    aborted := 0
    state := match q.state with
      | .locked _ => .ready
      | .down => .down
      | .ready => .ready
      | .feeding f => .feeding f }

/-- R67: Release Transport. -/
def releaseTransportRule : RequestRule := fun body s =>
  match readOneByte body with
  | none => refuse s .badLength
  | some t =>
    if h : t.toNat < 4 then
      let p : PortId := ⟨t.toNat, h⟩
      if (s.port p).isDown then refuse s .wrongState
      else accept (s.modPort p Port.release) [((s.port p).release).state.byte]
    else refuse s .badField

/-- READ_STATUS (R175). -/
def execReadStatus (body : List Byte) (s : State) : Host.Outcome State Fault Refusal :=
  execRequest readStatusCode readStatusRule body s

/-- CLEAR_CAUSES (R162). -/
def execClearCauses (body : List Byte) (s : State) : Host.Outcome State Fault Refusal :=
  execRequest clearCausesCode clearCausesRule body s

/-- RELEASE_TRANSPORT (R67). -/
def execReleaseTransport (body : List Byte) (s : State) : Host.Outcome State Fault Refusal :=
  execRequest releaseTransportCode releaseTransportRule body s

end Sys2Proof.Machine
end

