-- ==== Sys2Proof/Machine/Power.lean ====
section
/-! DEFINITION. Power and Start-up (chapter 8), and the idle and hold-up expiries. -/

namespace Sys2Proof.Machine

/-! ### Idle expiry (R44) -/

/-- R44: the idle timer of a slot reaches the limit: the record is held with IDLE. A timer that does not run,
or a limit of 0, has no expiry. -/
def State.idleExpiry (s : State) (i : Slot) : State :=
  match s.record? i with
  | none => s
  | some r =>
    match r.idleSince with
    | none => s
    | some start =>
      if s.idleLimit = 0 then s
      else (s.clockAtLeast (start + s.idleLimit * Config.minute)).holdRecord true i .idle

/-- IDLE_EXPIRY (R44). -/
def execIdleExpiry (i : Slot) (s : State) : Host.Outcome State Fault Refusal :=
  .next (s.whenRunning fun s => s.idleExpiry i)

/-! ### The power-warning input (R154, R155) -/

/-- R154: an assertion is taken: the cause flag, POWER in every stop set, the hold-up timer. -/
def State.takeAssertion (s : State) : State :=
  let s' := (List.finRange 4).foldl (fun t p => t.setPowerStop p true)
    { s with causes := { s.causes with powerWarning := true } }
  { s' with holdUp := some { start := s.now, duration := s.holdUpTime } }

/-- R154: the input is asserted. Only a change of the level is an event, and only a part that runs takes it;
otherwise the level alone changes (R159, R160 step 7; DEDUCED, log 15). -/
def State.assertWarning (s : State) : State :=
  let s' := { s with warning := true }
  if s.running && !s.warning then s'.takeAssertion else s'

/-- POWER_WARNING_ASSERTED (R154). -/
def execPowerWarningAsserted (s : State) : Host.Outcome State Fault Refusal :=
  .next s.assertWarning

/-- R155: the input is deasserted. While the hold-up timer runs it stops and POWER leaves every stop set;
otherwise the level alone changes. -/
def State.deassertWarning (s : State) : State :=
  let s' := { s with warning := false }
  if s.running && s.warning && s.holdUp.isSome then
    (List.finRange 4).foldl (fun t p => t.setPowerStop p false) { s' with holdUp := none }
  else s'

/-- POWER_WARNING_DEASSERTED (R155). -/
def execPowerWarningDeasserted (s : State) : Host.Outcome State Fault Refusal :=
  .next s.deassertWarning

/-! ### Hold-up expiry (R156) -/

/-- R156 steps 1 to 3 at one port: the window is lost and the feed aborted with POWER, silently. -/
def State.expirePort (s : State) (p : PortId) : State :=
  (s.loseWindow false none p).abortFeed false p .power

/-- The ports that have a feed, in ascending order. -/
def State.feedingPorts (s : State) : List PortId :=
  (List.finRange 4).filter fun p => (s.feed? p).isSome

/-- R156: the hold-up timer expires. Strap Orders come first, then Pace, then End Refused to the ports whose
feed was aborted. Without a running timer there is no expiry. -/
def State.holdUpExpiry (s : State) : State :=
  match s.holdUp with
  | none => s
  | some t =>
    let s1 := { s.clockAtLeast (t.start + t.duration) with holdUp := none }
    let s2 := ((List.finRange 4).foldl State.expirePort s1).judgeBacklog s.backlog none
    s.feedingPorts.foldl (fun t p => t.send p (.endRefused .aborted)) s2

/-- HOLD_UP_EXPIRY (R156). -/
def execHoldUpExpiry (s : State) : Host.Outcome State Fault Refusal :=
  .next (s.whenRunning State.holdUpExpiry)

/-! ### Reset line and supply (R158, R159) -/

/-- RESET_LINE_ASSERTED (R159): the part takes no event, and its volatile state is lost (R158). -/
def execResetLineAsserted (s : State) : Host.Outcome State Fault Refusal :=
  .next { s.discardVolatile with resetLine := true }

/-- POWER_FAILURE (R158): the supply is gone, and the volatile state with it. -/
def execPowerFailure (s : State) : Host.Outcome State Fault Refusal :=
  .next { s.discardVolatile with powered := false }

/-! ### Start-up (R48, R139, R160) -/

/-- R160 step 1: the cause. A part that comes up from no supply sets POWER_UP alone, whatever its reset line did
(R159). On a part that runs, DESIGN CHOICE, log 16. -/
def State.setCause (s : State) (cause : StartCause) : State :=
  if !s.powered ∨ cause = .powerUp then { s with causes := { s.causes with powerUp := true } }
  else { s with causes := { s.causes with resetLine := true } }

/-- R13: CONFIG_FAULT is decided from the store. -/
def State.checkConfiguration (s : State) : State :=
  { s with configFault := !(s.config.computedWord = s.checkWord && s.config.inRange) }

/-- R48: a record is recovered: a non-empty feeding set is emptied with a POWER hold, the pending count is 0,
and the idle timer runs where the record is then COUNTING. -/
def DepositRecord.recover (r : DepositRecord) (now : Nat) : DepositRecord :=
  let r1 := if r.feedingEmpty then r
    else DepositRecord.takeHold { r with feeding := Vector.replicate 4 false } .power
  DepositRecord.startIdle { r1 with pending := 0, idleSince := none } now

/-- R139 steps 1 to 3 for a bound bundle: its reservations are given back; an OPEN, FILLED or CLOSING one left
empty is removed; every other becomes UNCONFIRMED. -/
def Bundle.recover (b : Bundle) : Binding :=
  let b1 := Bundle.dropEmpty { b with
    inFlight := 0
    contributions := b.contributions.map fun c => { c with reserved := 0 } }
  let b2 := { b1 with state := b1.state.unconfirm }
  match b1.state with
  | .opened | .filled | .closing => if b1.stacked = 0 then .unbound else .bound b2
  | .completeWaiting | .strapping | .collectable | .unconfirmed _ => .bound b2

/-- R84, R139: the binding of a pocket after start-up. -/
def Binding.recover : Binding → Binding
  | .bound b => b.recover
  | .unbound | .blocked => .unbound

/-- R160 steps 3 and 4. A COLLECTABLE bundle is kept as it is. -/
def State.recoverTables (s : State) : State :=
  { s with
    records := s.records.map fun r => r.map fun r => r.recover s.now
    bindings := s.bindings.map Binding.recover }

/-- R134, R160 step 5: the governor starts from the backlog. -/
def State.startGovernor (s : State) : State :=
  let s' := { s with effective := s.backlog }
  { s' with pace := s'.paceFor s'.effective }

/-- R160: start-up, with the ports DOWN and the link IDLE from the discarding of the volatile state on (step 6),
and the power-warning level sampled last (step 7). -/
def State.startUp (s : State) (cause : StartCause) : State :=
  let s1 := { (s.setCause cause).discardVolatile with powered := true, resetLine := false }
  let s2 := (s1.checkConfiguration.recoverTables).startGovernor
  if s2.warning then s2.takeAssertion else s2

/-- START_UP (R160). -/
def execStartUp (cause : StartCause) (s : State) : Host.Outcome State Fault Refusal :=
  .next (s.startUp cause)

end Sys2Proof.Machine
end

