-- ==== Sys2Proof/Machine/Settlement.lean ====
section
/-! DEFINITION. The Reconciler and the Settle request (chapter 7). -/

namespace Sys2Proof.Machine

/-- R143: the counted value C. -/
def DepositRecord.countedValue (r : DepositRecord) (face : DenomIndex → Nat) : Nat :=
  ((List.finRange 12).map fun i => (r.cells[i.val].fit + r.cells[i.val].unfit) * face i).sum

/-- R144: the suspect value S. -/
def DepositRecord.suspectValue (r : DepositRecord) (face : DenomIndex → Nat) : Nat :=
  ((List.finRange 12).map fun i => r.cells[i.val].suspect * face i).sum

/-- R142: the declared count n_i, 0 for an index the breakdown does not name. -/
def declaredCount (l : List BreakdownEntry) (i : DenomIndex) : Nat :=
  match l.find? fun e => e.index = i with
  | some e => e.count
  | none => 0

/-- R146: the signed count difference of an index. -/
def DepositRecord.countDifference (r : DepositRecord) (i : DenomIndex) : Int :=
  ((r.cells[i.val].fit + r.cells[i.val].unfit : Nat) : Int) - (declaredCount r.breakdown i : Int)

/-- R146: the mismatch list, absent when no breakdown is held. -/
def DepositRecord.mismatchList (r : DepositRecord) : Option (List Mismatch) :=
  if r.breakdown.isEmpty then none
  else some ((List.finRange 12).filterMap fun i =>
    if r.countDifference i = 0 then none else some { index := i, difference := r.countDifference i })

/-- R147: the outcome, from the difference, whether the list has an entry, and the suspect value. -/
def outcomeOf (difference : Int) (mismatched : Bool) (suspect : Nat) : SettleOutcome :=
  if difference = 0 then (if mismatched then .mixed else .exact)
  else if 0 < difference then .over
  else if difference + suspect = 0 then .shortBySuspect
  else .short

/-- R145 to R149: the settlement result of a record. -/
def DepositRecord.settlement (r : DepositRecord) (face : DenomIndex → Nat) : Settlement :=
  let counted := r.countedValue face
  let suspect := r.suspectValue face
  let difference : Int := (counted : Int) - (r.declaredTotal : Int)
  let mismatches := r.mismatchList
  { outcome := outcomeOf difference (mismatches.any fun l => !l.isEmpty) suspect
    counted := counted
    suspect := suspect
    difference := difference
    suspectMark := r.suspectTotal + r.unrecognized ≠ 0
    mismatches := mismatches }

/-- R141 step 2: the record takes the result. -/
def DepositRecord.settled (r : DepositRecord) (t : Settlement) : DepositRecord :=
  { r with
    state := if t.outcome = .exact then .balanced else .discrepant
    result := some t
    idleSince := none }

/-- R124: the bundles that Settle of a record closes short: those of its own custody group. -/
def settleCloses (i : Slot) (r : DepositRecord) (b : Bundle) : Bool :=
  r.custody = .segregated && b.key.group = .slot i

/-- R140, R141: Settle. -/
def settleRule : RequestRule := fun body s =>
  match readReference body with
  | none => refuse s .badLength
  | some ref =>
    if s.configFault then refuse s .configFault
    else withRecord s ref fun i r =>
      if r.state ≠ .declared ∧ r.state ≠ .counting then refuse s .wrongState
      else if !r.feedingEmpty then refuse s .activeFeeds
      else
        let t := r.settlement (s.config.face r.currency)
        let r' := r.settled t
        let c := (s.setRecord i (some r')).shortClose (settleCloses i r)
        accept (c.state.judgeBacklog s.backlog none)
          ([recordStateByte (some r'.state), natByte c.reached, natByte c.completed] ++ t.image)

/-- SETTLE (R141). -/
def execSettle (body : List Byte) (s : State) : Host.Outcome State Fault Refusal :=
  execRequest settleCode settleRule body s

end Sys2Proof.Machine
end

