-- ==== Sys2Proof/Machine/Dispatch.lean ====
section
/-! DEFINITION. The meaning of every command: what it does to everything but the queue of commands. -/

namespace Sys2Proof.Machine

def exec (i : Instr) (s : State) : Host.Outcome State Fault Refusal :=
  match i with
  | .declare body => Sys2Proof.Machine.execDeclare body s
  | .amend body => Sys2Proof.Machine.execAmend body s
  | .cancel body => Sys2Proof.Machine.execCancel body s
  | .lookUp body => Sys2Proof.Machine.execLookUp body s
  | .list body => Sys2Proof.Machine.execList body s
  | .settle body => Sys2Proof.Machine.execSettle body s
  | .hold body => Sys2Proof.Machine.execHold body s
  | .release body => Sys2Proof.Machine.execRelease body s
  | .sealRecord body => Sys2Proof.Machine.execSealRecord body s
  | .retire body => Sys2Proof.Machine.execRetire body s
  | .takeBundle body => Sys2Proof.Machine.execTakeBundle body s
  | .lookBundle body => Sys2Proof.Machine.execLookBundle body s
  | .flushPooled body => Sys2Proof.Machine.execFlushPooled body s
  | .setDenomination body => Sys2Proof.Machine.execSetDenomination body s
  | .setLimits body => Sys2Proof.Machine.execSetLimits body s
  | .setPaceCurve body => Sys2Proof.Machine.execSetPaceCurve body s
  | .readConfiguration body => Sys2Proof.Machine.execReadConfiguration body s
  | .commitConfiguration body => Sys2Proof.Machine.execCommitConfiguration body s
  | .initializeStore body => Sys2Proof.Machine.execInitializeStore body s
  | .readStatus body => Sys2Proof.Machine.execReadStatus body s
  | .clearCauses body => Sys2Proof.Machine.execClearCauses body s
  | .releaseTransport body => Sys2Proof.Machine.execReleaseTransport body s
  | .poll clocked => Sys2Proof.Machine.execPoll clocked s
  | .requestFrame frame => Sys2Proof.Machine.execRequestFrame frame s
  | .hello port presence => Sys2Proof.Machine.execHello port presence s
  | .feedStart port reference => Sys2Proof.Machine.execFeedStart port reference s
  | .noteReport port seq index fitness verdict => Sys2Proof.Machine.execNoteReport port seq index fitness verdict s
  | .stacked port seq pocket => Sys2Proof.Machine.execStacked port seq pocket s
  | .jam port => Sys2Proof.Machine.execJam port s
  | .jamCleared port => Sys2Proof.Machine.execJamCleared port s
  | .feedEnd port count => Sys2Proof.Machine.execFeedEnd port count s
  | .pocketCleared port pocket => Sys2Proof.Machine.execPocketCleared port pocket s
  | .discardedMessage port type body lineError => Sys2Proof.Machine.execDiscardedMessage port type body lineError s
  | .flightExpiry port seq => Sys2Proof.Machine.execFlightExpiry port seq s
  | .idleExpiry slot => Sys2Proof.Machine.execIdleExpiry slot s
  | .holdUpExpiry => Sys2Proof.Machine.execHoldUpExpiry s
  | .powerWarningAsserted => Sys2Proof.Machine.execPowerWarningAsserted s
  | .powerWarningDeasserted => Sys2Proof.Machine.execPowerWarningDeasserted s
  | .resetLineAsserted => Sys2Proof.Machine.execResetLineAsserted s
  | .powerFailure => Sys2Proof.Machine.execPowerFailure s
  | .startUp cause => Sys2Proof.Machine.execStartUp cause s

end Sys2Proof.Machine
end

