-- ==== Sys2Proof/Machine/Timers.lean ====
section
/-! DEFINITION. The passing of time: one millisecond, and the expiries that it brings (DESIGN CHOICE, log 3, log 4). -/

namespace Sys2Proof.Machine

/-- R156: the hold-up timer's measured time has reached its duration. -/
def State.holdUpDue (s : State) : Bool :=
  match s.holdUp with
  | none => false
  | some t => t.start + t.duration ≤ s.now

/-- R105: the expiries of the port's entries whose deadline has come (DEDUCED, log 17), in window order. -/
def State.flightsDue (s : State) (p : PortId) : List Instr :=
  ((s.port p).window.filter fun e => e.deadline ≤ s.now).map fun e => .flightExpiry p e.seq

/-- The expiries due at the clock's time: hold-up, then flights by port, then idle timers by slot (DESIGN
CHOICE, log 4). -/
def State.expiriesDue (s : State) : List Instr :=
  (if s.holdUpDue then [Instr.holdUpExpiry] else []) ++
  (List.finRange 4).flatMap s.flightsDue ++
  ((List.finRange 128).filter s.idleDue).map Instr.idleExpiry

/-- One millisecond passes, and the expiries then due join the queue. No timer runs while the part does not run
(R159). -/
def State.tick (s : State) : State :=
  if s.running then
    let s' := { s with now := s.now + 1 }
    { s' with pending := s'.pending ++ s'.expiriesDue }
  else s

end Sys2Proof.Machine
end

