-- ==== Sys2Proof/WellFormed.lean ====
section
/-! DEFINITION. The commands that can reach the CT-4 as the rows of the table describe them. Every meaning
is total: it says what an ill-formed command does too. -/

namespace Sys2Proof

/-- A command is well formed when
- the body of a request fits its frame (R170);
- a poll clocks at least one byte and a request frame begins with a byte other than 0x00 (R168);
- a Note Report, Stacked or Pocket Cleared has fields with a meaning (R180);
- a discarded message has a body that its length byte can count, and is one that R49 discards. -/
def Instr.wellFormed : Instr → Bool
  | .declare b | .amend b | .cancel b | .lookUp b | .list b | .settle b | .hold b | .release b
  | .sealRecord b | .retire b | .takeBundle b | .lookBundle b | .flushPooled b | .setDenomination b
  | .setLimits b | .setPaceCurve b | .readConfiguration b | .commitConfiguration b | .initializeStore b
  | .readStatus b | .clearCauses b | .releaseTransport b => b.length ≤ Config.bodyLimit
  | .poll n => 1 ≤ n
  | .requestFrame f => match f with
    | [] => false
    | code :: _ => code ≠ 0#8
  | .noteReport _ _ index fitness verdict => noteFieldsValid index fitness verdict
  | .stacked _ _ pocket => pocket.toNat < 8
  | .pocketCleared _ pocket => pocket.toNat < 8
  | .discardedMessage p type body lineError =>
    body.length ≤ 255 && (lineError || (readMessage p type body).isNone)
  | .hello _ _ | .feedStart _ _ | .jam _ | .jamCleared _ | .feedEnd _ _ | .flightExpiry _ _ | .idleExpiry _
  | .holdUpExpiry | .powerWarningAsserted | .powerWarningDeasserted | .resetLineAsserted | .powerFailure
  | .startUp _ => true

end Sys2Proof
end

