-- ==== Sys2Proof/Safety.lean ====
section
/-! DEFINITION. The terms in which claims about the CT-4 are made, written from the rules and not from the
meanings: when a request is at its own event, what the rules' tables say, and the laws of the whole part. -/

namespace Sys2Proof.Machine

/-! ### Requests (R169 to R171) -/

/-- The request with this code and body has been handed to its block, and its event is next. -/
def State.executes (s : State) (code : Byte) (body : List Byte) : Bool :=
  s.running &&
    match s.link with
    | .executing r _ => r = { code := code, body := body }
    | .idle | .holding _ _ => false

/-- A frame was discarded during the execution of the request (R171). -/
def State.overrun (s : State) : Bool :=
  match s.link with
  | .executing _ o => o
  | .idle | .holding _ _ => false

/-- The state `u` with the response of the request that executes in `s` held by the link (R169, R171). -/
def State.replies (s u : State) (code : CompletionCode) (answer : List Byte) : State :=
  { u with link := .holding { code := code, body := answer } s.overrun }

/-- The code and body of a host request (the table of 9.5); `none` for every other command. -/
def Instr.asRequest : Instr → Option Request
  | .declare b => some ⟨0x01, b⟩
  | .amend b => some ⟨0x02, b⟩
  | .cancel b => some ⟨0x03, b⟩
  | .lookUp b => some ⟨0x04, b⟩
  | .list b => some ⟨0x05, b⟩
  | .settle b => some ⟨0x06, b⟩
  | .hold b => some ⟨0x07, b⟩
  | .release b => some ⟨0x08, b⟩
  | .sealRecord b => some ⟨0x09, b⟩
  | .retire b => some ⟨0x0A, b⟩
  | .takeBundle b => some ⟨0x0B, b⟩
  | .lookBundle b => some ⟨0x0C, b⟩
  | .flushPooled b => some ⟨0x0D, b⟩
  | .setDenomination b => some ⟨0x0E, b⟩
  | .setLimits b => some ⟨0x0F, b⟩
  | .setPaceCurve b => some ⟨0x10, b⟩
  | .readConfiguration b => some ⟨0x11, b⟩
  | .commitConfiguration b => some ⟨0x12, b⟩
  | .initializeStore b => some ⟨0x13, b⟩
  | .readStatus b => some ⟨0x14, b⟩
  | .clearCauses b => some ⟨0x15, b⟩
  | .releaseTransport b => some ⟨0x16, b⟩
  | .poll _ | .requestFrame _ | .hello _ _ | .feedStart _ _ | .noteReport _ _ _ _ _ | .stacked _ _ _ | .jam _
  | .jamCleared _ | .feedEnd _ _ | .pocketCleared _ _ | .discardedMessage _ _ _ _ | .flightExpiry _ _
  | .idleExpiry _ | .holdUpExpiry | .powerWarningAsserted | .powerWarningDeasserted | .resetLineAsserted
  | .powerFailure | .startUp _ => none

/-- The body has the length that the table of 9.5 gives its request. -/
def Request.lengthFits (r : Request) : Bool :=
  match r.code.toNat with
  | 0x01 => match r.body[15]? with
    | some k => k.toNat ≤ 12 && r.body.length = 16 + 3 * k.toNat
    | none => false
  | 0x02 => match r.body[10]? with
    | some k => k.toNat ≤ 12 && r.body.length = 11 + 3 * k.toNat
    | none => false
  | 0x03 | 0x06 | 0x07 | 0x08 | 0x0A => r.body.length = 4
  | 0x04 | 0x09 => r.body.length = 5
  | 0x05 => r.body.length = 2
  | 0x0B | 0x0C | 0x12 | 0x13 | 0x14 => r.body.length = 0
  | 0x0D | 0x11 | 0x15 | 0x16 => r.body.length = 1
  | 0x0E => r.body.length = 10
  | 0x0F => r.body.length = 8
  | 0x10 => r.body.length = 19
  | _ => false

/-! ### Configuration (chapter 1) -/

/-- R13: every stored value lies in its range (1.1, R7). -/
def Configuration.Legal (c : Configuration) : Prop :=
  (∀ (k : SetId) (i : DenomIndex),
    (c.entry k i).face.toNat ≤ 100000000 ∧
    10 ≤ (c.entry k i).strap.toNat ∧ (c.entry k i).strap.toNat ≤ 200 ∧
    (c.entry k i).fitDisposition.toNat ≤ 1 ∧ (c.entry k i).unfitDisposition.toNat ≤ 1 ∧
    (c.entry k i).combine.toNat ≤ 1) ∧
  (50 ≤ c.limits.flight.toNat ∧ c.limits.flight.toNat ≤ 2000 ∧ 10 ∣ c.limits.flight.toNat) ∧
  c.limits.idle.toNat ≤ 240 ∧
  (20 ≤ c.limits.holdUp.toNat ∧ c.limits.holdUp.toNat ≤ 200) ∧
  (50 ≤ c.limits.suspectStop.toNat ∧ c.limits.suspectStop.toNat ≤ 300) ∧
  (100 ≤ c.limits.returnStop.toNat ∧ c.limits.returnStop.toNat ≤ 500) ∧
  (∀ k : Fin 9, c.curve.points[k.val].toNat ≤ 1000) ∧
  c.curve.hysteresis.toNat ≤ 4

/-- R5: a record names the set, or a bundle record of the set exists. -/
def State.SetNamed (s : State) (k : Nat) : Prop :=
  (∃ i r, s.record? i = some r ∧ r.currency.val = k) ∨
  (∃ pl b, s.binding pl = .bound b ∧ b.key.currency.val = k) ∨
  (∃ b, .lifted b ∈ s.queue ∧ b.key.currency.val = k)

/-- R17: every slot is FREE, no sort pocket is bound, and the two lists are empty. -/
def State.NothingHeld (s : State) : Prop :=
  (∀ i, s.record? i = none) ∧ (∀ pl b, s.binding pl ≠ .bound b) ∧ s.waiting = [] ∧ s.queue = []

/-- R136: the pace at an effective backlog e, from the points G0 to G8 as stored. -/
def paceOf (points : Vector (BitVec 16) 9) (e : Nat) : Nat :=
  let g (k : Nat) : Nat := match points[k]? with
    | some x => x.toNat
    | none => 0
  if e % 2 = 0 then g (e / 2) else (g ((e - 1) / 2) + g ((e + 1) / 2)) / 2

/-! ### Records (chapter 2) -/

/-- The slot `i` holds the record `r` of the reference `ref`, and no other slot holds that reference (R19). -/
def State.Named (s : State) (ref : Reference) (i : Slot) (r : DepositRecord) : Prop :=
  s.record? i = some r ∧ r.reference = ref ∧ ref ≠ 0 ∧
    ∀ j r', s.record? j = some r' → r'.reference = ref → j = i

/-- No record holds the reference. -/
def State.Unnamed (s : State) (ref : Reference) : Prop :=
  ∀ i r, s.record? i = some r → r.reference ≠ ref

/-- R31 row 3: an index 0 to 11, a count of at least 1, and no index twice. -/
def BreakdownShaped (l : List BreakdownField) : Prop :=
  (∀ e ∈ l, e.index.toNat < 12 ∧ e.count ≠ 0) ∧ l.Pairwise fun a b => a.index ≠ b.index

/-- R1, R31 row 3: every named index is enabled in the set. -/
def BreakdownEnabled (c : Configuration) (k : SetId) (l : List BreakdownField) : Prop :=
  ∀ e ∈ l, ∀ i : DenomIndex, e.index.toNat = i.val → (c.entry k i).face ≠ 0

/-- R22: the value of a breakdown, count times face value. -/
def breakdownValue (c : Configuration) (k : SetId) (l : List BreakdownField) : Nat :=
  (l.map fun e => if h : e.index.toNat < 12 then e.count.toNat * (c.entry k ⟨e.index.toNat, h⟩).face.toNat else 0).sum

/-- R20, R31: the stored breakdown holds the entries sent, in ascending index order. -/
def StoredAs (l : List BreakdownField) (stored : List BreakdownEntry) : Prop :=
  (stored.Pairwise fun a b => a.index.val < b.index.val) ∧
  (stored.map fun e => (e.index.val, e.count)).Perm (l.map fun e => (e.index.toNat, e.count.toNat))

/-- R36: the states that a hold takes to HELD. -/
def RecordState.Holdable (st : RecordState) : Bool :=
  st = .declared || st = .counting || st = .balanced || st = .discrepant

/-- R36, R38: a record after a hold whose reason `add` puts into a set of reasons. -/
def DepositRecord.afterHold (r : DepositRecord) (add : HoldReasons → HoldReasons) : DepositRecord :=
  if r.state.Holdable then { r with state := .held, holds := add r.holds, result := none, idleSince := none }
  else if r.state = .held then { r with holds := add r.holds }
  else r

/-! ### The stop set (R60) -/

/-- R60: a port after its feed's stop set has become `new`: the message, the feed state, and nothing for a set
that did not change. -/
def Port.takesStop (q : Port) (new : StopSet) : Port :=
  match q.state with
  | .feeding f =>
    if new = f.stop then q
    else match f.state with
      | .active =>
        if new = {} then { q with state := .feeding { f with stop := new } }
        else { q with state := .feeding { f with stop := new, state := .suspended }, out := q.out ++ [.stop new false] }
      | .suspended =>
        if new = {} then { q with state := .feeding { f with stop := new, state := .active }, out := q.out ++ [.resume] }
        else { q with state := .feeding { f with stop := new }, out := q.out ++ [.stop new false] }
      | .ending _ =>
        if new = {} then { q with state := .feeding { f with stop := new }, out := q.out ++ [.resume] }
        else { q with state := .feeding { f with stop := new }, out := q.out ++ [.stop new false] }
      | .jammed => { q with state := .feeding { f with stop := new } }
  | .down | .ready | .locked _ => q

/-- HOLD joins or leaves the stop set of the port's feed. -/
def Port.takesHold (q : Port) (on : Bool) : Port :=
  match q.state with
  | .feeding f => q.takesStop { f.stop with hold := on }
  | .down | .ready | .locked _ => q

/-- POWER joins or leaves the stop set of the port's feed. -/
def Port.takesPower (q : Port) (on : Bool) : Port :=
  match q.state with
  | .feeding f => q.takesStop { f.stop with power := on }
  | .down | .ready | .locked _ => q

/-- R53: the pocket-full condition under the two thresholds. -/
def Port.Full (q : Port) (returnStop suspectStop : Nat) : Bool :=
  returnStop ≤ q.p0.fill + q.p0.inFlight || suspectStop ≤ q.p1.fill + q.p1.inFlight || q.p0.mark || q.p1.mark

/-- R92: POCKET_FULL joins or leaves the stop set as the condition stands. -/
def Port.takesFull (q : Port) (returnStop suspectStop : Nat) : Port :=
  match q.state with
  | .feeding f => q.takesStop { f.stop with pocketFull := q.Full returnStop suspectStop }
  | .down | .ready | .locked _ => q

/-- The port with a message added to its outgoing order (R50). -/
def Port.sends (q : Port) (m : OutMessage) : Port :=
  { q with out := q.out ++ [m] }

/-- The ports with `g` applied to those that are not DOWN. -/
def State.portsUp (s : State) (g : Port → Port) : Vector Port 4 :=
  s.ports.map fun q => if q.isDown then q else g q

/-- R36, R60: the ports after a hold has reached the records that `held` picks out: HOLD joins the stop set of
every feed on a record that enters HELD. -/
def State.portsHeld (s : State) (held : Slot → DepositRecord → Bool) : Vector Port 4 :=
  Vector.ofFn fun x : PortId =>
    if (List.finRange 128).any fun i =>
      (s.record? i).any fun r => held i r && r.state.Holdable && r.feeding[x.val]
    then (s.port x).takesHold true
    else s.port x

/-! ### Bundles (chapter 6) -/

/-- R128: `n` bundle numbers after a number; 1 follows 0xFFFFFFFF. -/
def numbersAfter : Nat → BitVec 32 → BitVec 32
  | 0, x => x
  | n + 1, x => numbersAfter n (if x = 0xFFFFFFFF#32 then 1#32 else x + 1#32)

/-- The state of the bundle bound to a pocket. -/
def State.bundleState? (s : State) (pl : Place) : Option BundleState :=
  (s.bundle? pl).map fun b => b.state

/-- R135: the effective backlog that follows from that of `u` where an event has moved the backlog from `before`
to that of `u`. -/
def State.effectiveFrom (u : State) (before : Nat) : Nat :=
  if u.backlog = before then u.effective
  else if u.effective ≤ u.backlog then u.backlog
  else if u.backlog + u.hysteresis < u.effective then u.backlog + u.hysteresis
  else u.effective

/-- R137: the pace of `u` at the effective backlog `e`: the old one while that stands, and worked out afresh where
it has moved. -/
def State.paceFrom (u : State) (e : Nat) : Nat :=
  if e = u.effective then u.pace else u.paceFor e

/-- R135, R137: the state `u` of an event that began with the backlog `before`, after the governor has judged it:
a new pace goes to every port that is not DOWN, behind what the event itself has sent it (the model's choice where
no rule gives the order, log 10). The port `unsaid` hears it in its Hello Answer. -/
def State.governed (u : State) (before : Nat) (unsaid : Option PortId := none) : State :=
  let e := u.effectiveFrom before
  let x := u.paceFrom e
  { u with
    effective := e
    pace := x
    ports :=
      if x = u.pace then u.ports
      else Vector.ofFn fun p : PortId =>
        if unsaid = some p ∨ (u.port p).isDown = true then u.port p else (u.port p).sends (.pace x) }

/-- The outgoing order of every port has only grown. -/
def OutGrows (s t : State) : Prop :=
  ∀ p, (s.port p).out <+: (t.port p).out

/-- Everything outside the records, the ports, the bundles, their two lists and the numbers. -/
def SameButHall (s t : State) : Prop :=
  t = { s with
    records := t.records, ports := t.ports, bindings := t.bindings, waiting := t.waiting, queue := t.queue,
    nextNumber := t.nextNumber }

/-- Outside the records, the ports, the bundles, their two lists and the numbers, `t` is `s` after the governor has
judged the backlog. -/
def SameButHallGoverned (s t : State) : Prop :=
  t = { s with
    records := t.records, ports := t.ports, bindings := t.bindings, waiting := t.waiting, queue := t.queue,
    nextNumber := t.nextNumber
    effective := { s with waiting := t.waiting, queue := t.queue : State }.effectiveFrom s.backlog
    pace := s.paceFrom t.effective }

/-- R128: the Strap Orders that a port is sent where the bundles of the pockets `l` enter the queue one after
another, the first with the number given. -/
def strapOrders (p : PortId) : BitVec 32 → List Place → List OutMessage
  | _, [] => []
  | n, pl :: rest =>
    (if placePort pl = p then [.strapOrder (placePocket pl) n] else []) ++ strapOrders p (numbersAfter 1 n) rest

/-- R128: `s` after the bundles bound to the pockets `l` have entered the queue one after another: number,
STRAPPING, tail of the queue, Strap Order (none to a port that is DOWN, R50). -/
def State.entering (s : State) (l : List Place) : State :=
  { s with
    bindings := Vector.ofFn fun pl : Place =>
      match s.binding pl with
      | .bound b =>
        if pl ∈ l then
          .bound { b with state := .strapping, number := some (numbersAfter (l.idxOf pl) s.nextNumber) }
        else .bound b
      | .unbound => .unbound
      | .blocked => .blocked
    ports := Vector.ofFn fun p : PortId =>
      if (s.port p).isDown then s.port p
      else { s.port p with out := (s.port p).out ++ strapOrders p s.nextNumber l }
    queue := s.queue ++ l.map .inPocket
    nextNumber := numbersAfter l.length s.nextNumber }

/-- R123: how many of `n` bundles that complete one after another enter the queue. -/
def State.queueRoom (s : State) (n : Nat) : Nat :=
  if s.waiting = [] then min n (16 - s.queue.length) else 0

/-- R123: `s` after the bundles bound to the pockets `l` have completed one after another: those for which there is
room enter the queue, and the others join the waiting list. -/
def State.completing (s : State) (l : List Place) : State :=
  let k := s.queueRoom l.length
  let u := s.entering (l.take k)
  { u with
    bindings := Vector.ofFn fun pl : Place =>
      match u.binding pl with
      | .bound b => if pl ∈ l.drop k then .bound { b with state := .completeWaiting } else .bound b
      | .unbound => .unbound
      | .blocked => .blocked
    waiting := s.waiting ++ l.drop k }

/-- R122: the bundles that a short close makes CLOSING. -/
def Closable (sel : Bundle → Bool) (b : Bundle) : Bool :=
  sel b && (b.state = .opened || b.state = .unconfirmed .opened || b.state = .unconfirmed .filled)

/-- R122: of those, the ones that complete in the same event. -/
def ClosesDrained (sel : Bundle → Bool) (b : Bundle) : Bool :=
  sel b && b.state = .opened && b.inFlight = 0

/-- The sort pockets whose bundle satisfies `g`, in ascending transport and pocket order. -/
def State.placesWith (s : State) (g : Bundle → Bool) : List Place :=
  (List.finRange 24).filter fun pl =>
    match s.bundle? pl with
    | some b => g b
    | none => false

/-- R122 to R125: `s` after a short close of the bundles that `sel` selects: those it reaches become CLOSING, or
stay UNCONFIRMED with that prior state, and those of them with nothing in flight complete, in ascending transport
and pocket order. -/
def State.shortClosed (s : State) (sel : Bundle → Bool) : State :=
  { s with
    bindings := Vector.ofFn fun pl : Place =>
      match s.binding pl with
      | .bound b =>
        if Closable sel b then
          .bound { b with short := true, state := if b.state = .opened then .closing else .unconfirmed .closing }
        else .bound b
      | .unbound => .unbound
      | .blocked => .blocked : State }.completing (s.placesWith (ClosesDrained sel))

/-- The contributions that hold a credit, without their reservations. -/
def creditsOf (l : List Contribution) : List Contribution :=
  (l.filter fun c => c.fit + c.unfit ≠ 0).map fun c => { c with reserved := 0 }

/-- R139 step 1: a bundle with its reservations given back and its empty contributions removed. -/
def Bundle.keptAtStartUp (b : Bundle) : Bundle :=
  { b with
    inFlight := 0
    contributions := creditsOf b.contributions }

/-- R127: how many bundles at the head of the waiting list are promoted, one after another. -/
def State.promotable (s : State) : Nat :=
  min (16 - s.queue.length)
    (s.waiting.takeWhile fun pl => s.bundleState? pl = some .completeWaiting).length

/-- R127, R128: `s` after the promotions. -/
def State.promoted (s : State) : State :=
  { s with waiting := s.waiting.drop s.promotable }.entering (s.waiting.take s.promotable)

/-- A record's notes among contributions that still name it: fit plus unfit (R26). -/
def shareOf (i : Slot) (ref : Reference) (l : List Contribution) : Nat :=
  (l.map fun c => if c.slot = i ∧ c.reference = ref then c.fit + c.unfit else 0).sum

/-- Some contribution names the record. -/
def contributes (i : Slot) (ref : Reference) (l : List Contribution) : Bool :=
  l.any fun c => c.slot = i && c.reference = ref

/-- R115: a record after the voiding of a bundle with the contributions `l`. -/
def DepositRecord.afterVoid (i : Slot) (l : List Contribution) (r : DepositRecord) : DepositRecord :=
  if contributes i r.reference l then
    { r with
      voided := r.voided + shareOf i r.reference l
      flags := { r.flags with voidedNotes := true } }.afterHold fun h => { h with custody := true }
  else r

/-- R115, R36: `s` after the bundle `b` of the pocket `pl` has been voided: its contributions reach the records that
still hold their references, HOLD joins the stop sets of the feeds on those that the CUSTODY hold takes to HELD,
and the pocket is UNBOUND. -/
def State.voided (s : State) (pl : Place) (b : Bundle) : State :=
  { s.setBinding pl .unbound with
    records := Vector.ofFn fun i : Slot => (s.record? i).map (DepositRecord.afterVoid i b.contributions)
    ports := s.portsHeld fun i r => contributes i r.reference b.contributions
    waiting := s.waiting.filter fun x => x ≠ pl }

/-! ### Losses (R106) -/

/-- The entries attributed to a slot. -/
def lossesOf (i : Slot) (w : List Entry) : List Entry :=
  w.filter fun e => e.slot = some i

/-- The entries for one pocket. -/
def entriesFor (k : Pocket) (w : List Entry) : List Entry :=
  w.filter fun e => e.pocket = k

/-- The entries attributed to any slot. -/
def attributed (w : List Entry) : List Entry :=
  w.filter fun e => e.slot.isSome

/-- R25, R106: a record after the loss of the entries of a window. -/
def DepositRecord.afterLosses (i : Slot) (w : List Entry) (r : DepositRecord) : DepositRecord :=
  let n := (lossesOf i w).length
  { r with
    lost := min (r.lost + n) 65535
    flags := { r.flags with saturated := r.flags.saturated || 65535 < r.lost + n }
    pending := r.pending - ((lossesOf i w).filter fun e => 2 ≤ e.pocket.val).length }

/-- R20: the saturating counts of every record are in their range. -/
def State.LostInRange (s : State) : Prop :=
  ∀ i r, s.record? i = some r → r.lost ≤ 65535

/-- R106 step 2: P0 and P1 of the port after the loss of the entries `w`. -/
def StacksAfterLosses (w : List Entry) (q q' : Port) : Prop :=
  q'.p0 = { q.p0 with inFlight := q.p0.inFlight - (entriesFor 0 w).length } ∧
  q'.p1 = { q.p1 with inFlight := q.p1.inFlight - (entriesFor 1 w).length }

/-- R117, R119: the in-flight count of a bundle is the number of entries that name its pocket, and a FILLED one
is exactly full. -/
def Bundle.Loses (b : Bundle) (n : Nat) : Prop :=
  b.inFlight = n ∧ n ≠ 0 ∧ (b.state = .filled → b.stacked + b.inFlight = b.strap ∧ 10 ≤ b.strap)

/-- R107: the bundles of the port after the loss of the entries `w` of the window of port `p`: those without a lost
note are as they were; OPEN and FILLED ones are OPEN, or unbound where nothing was stacked; a CLOSING one is complete
(R123), or unbound, but in the pulled pocket it completes nothing (R114). -/
def BundlesAfterLosses (pulled : Option Place) (p : PortId) (w : List Entry) (s t : State) : Prop :=
  (∀ pl, placePort pl = p → entriesFor (placePocket pl) w = [] → t.binding pl = s.binding pl) ∧
  ∀ pl b, placePort pl = p → s.binding pl = .bound b → b.Loses (entriesFor (placePocket pl) w).length →
    b.state = .opened ∨ b.state = .filled ∨ b.state = .closing →
      (b.stacked = 0 → t.binding pl = .unbound) ∧
      (b.stacked ≠ 0 → ∃ b', t.binding pl = .bound b' ∧
        b' = { b with
          inFlight := 0, contributions := b'.contributions, state := b'.state, number := b'.number } ∧
        creditsOf b'.contributions = creditsOf b.contributions ∧
        (b.state ≠ .closing → b'.state = .opened ∧ b'.number = b.number) ∧
        (b.state = .closing → pulled = some pl → b'.state = .closing ∧ b'.number = b.number) ∧
        (b.state = .closing → pulled ≠ some pl →
          b'.state = .strapping ∧ b'.number ≠ none ∧ .inPocket pl ∈ t.queue ∨
          b'.state = .completeWaiting ∧ b'.number = b.number ∧ pl ∈ t.waiting))

/-- R117, R119: the bundles of the port that have entries among `w` count them as their notes in flight. -/
def State.LossesFit (s : State) (p : PortId) (w : List Entry) : Prop :=
  ∀ pl b, placePort pl = p → s.binding pl = .bound b → entriesFor (placePocket pl) w ≠ [] →
    b.Loses (entriesFor (placePocket pl) w).length

/-- R107, R114: the bundles of the port that the loss of the entries `w`, one after another, completes, in the order
of their last losses: the CLOSING ones with notes stacked, but for that of the pulled pocket. -/
def State.completedBy (s : State) (pulled : Option Place) (p : PortId) (w : List Entry) : List Place :=
  (w.filterMap fun e => placeOf p e.pocket).dedup.filter fun pl =>
    pulled ≠ some pl &&
      match s.bundle? pl with
      | some b => b.state = .closing && b.stacked ≠ 0
      | none => false

/-- R123, R127, R128: the lists and the next bundle number after the bundles of the pockets `l` have completed one
after another. -/
def ListsAfter (l : List Place) (s t : State) : Prop :=
  let k := s.queueRoom l.length
  t.queue = s.queue ++ (l.take k).map .inPocket ∧ t.waiting = s.waiting ++ l.drop k ∧
  t.nextNumber = numbersAfter k s.nextNumber

/-- R128: the Strap Orders that port `p` is sent where the bundles of the pockets `l` complete one after another. -/
def State.strapsFor (s : State) (p : PortId) (l : List Place) : List OutMessage :=
  strapOrders p s.nextNumber (l.take (s.queueRoom l.length))

/-- The message is a Strap Order. -/
def OutMessage.isStrap : OutMessage → Bool
  | .strapOrder _ _ => true
  | .helloAnswer _ | .feedAccept _ _ | .feedRefuse _ | .pocketOrder _ _ | .stop _ _ | .resume | .pace _
  | .endDone _ _ _ _ _ | .endRefused _ => false

/-- R106 step 4, R92: the stop set of a feed after the loss of the entries `w`, which tests the pocket-full condition
where one of them was for P0 or P1; `tested` says that the event tests it besides. `full` is the condition as the
event leaves it. -/
def Feed.stopAfterLosses (f : Feed) (tested : Bool) (w : List Entry) (full : Bool) : StopSet :=
  if tested || w.any fun e => e.pocket.val < 2 then { f.stop with pocketFull := full } else f.stop

/-- R106 steps 2 and 4, R92: the port after the loss of an entry, as to the counts of P0 and P1, the stop set and what
is said of it, with the thresholds given. -/
def Port.losing (returnStop suspectStop : Nat) (q : Port) (e : Entry) : Port :=
  if e.pocket = 0 then
    { q with p0 := { q.p0 with inFlight := q.p0.inFlight - 1 } }.takesFull returnStop suspectStop
  else if e.pocket = 1 then
    { q with p1 := { q.p1 with inFlight := q.p1.inFlight - 1 } }.takesFull returnStop suspectStop
  else q

/-- R104, R92: the port after a stray note has reached the pocket. -/
def Port.strayed (returnStop suspectStop : Nat) (q : Port) (k : Pocket) : Port :=
  if k = 0 then { q with p0 := { q.p0 with fill := min (q.p0.fill + 1) 65535 } }.takesFull returnStop suspectStop
  else if k = 1 then { q with p1 := { q.p1 with fill := min (q.p1.fill + 1) 65535 } }.takesFull returnStop suspectStop
  else q

/-- R106: the port `p` of `s` after the loss of its window, one entry after another, in those respects. -/
def State.judgedByLosses (s : State) (p : PortId) : Port :=
  (s.port p).window.foldl (Port.losing s.returnStop s.suspectStop) (s.port p)

/-- R106, R107, R109: the messages `before` are those of the loss of the entries `w`: the Strap Orders of the bundles
that complete, exactly these where the counts stand as the rules keep them (R117), and the Stops and Resumes `words` of
the pocket-full tests. The order of the losses alone orders the one kind against the other. -/
def LossesSay (pulled : Option Place) (w : List Entry) (words : List OutMessage) (s : State) (p : PortId)
    (before : List OutMessage) : Prop :=
  (∀ m ∈ before, (∃ k n, m = .strapOrder k n) ∨ (∃ x, m = .stop x false) ∨ m = .resume) ∧
  (s.LossesFit p w → before.filter OutMessage.isStrap = s.strapsFor p (s.completedBy pulled p w)) ∧
  before.filter (fun m => !m.isStrap) = words

/-- R64, R106, R36: the records and the other ports after the feed `f` of port `p` has lost its window and has been
aborted with the hold reason that `add` puts in: the transport has left the feeding set, and where the record enters
HELD, HOLD joins the stop set of its other feeds. -/
def FeedAborted (add : HoldReasons → HoldReasons) (s t : State) (p : PortId) (f : Feed) : Prop :=
  (∀ i, t.record? i = (s.record? i).map fun r =>
    let r' := r.afterLosses i (s.port p).window
    if i = f.slot then ({ r' with feeding := r'.feeding.set p.val false } : DepositRecord).afterHold add else r') ∧
  ∀ x, x ≠ p → t.port x =
    if (s.record? f.slot).any fun r => r.state.Holdable && r.feeding[x.val] then (s.port x).takesHold true
    else s.port x

/-- R156: the record `r` of the slot `i` in `s` after the hold-up expiry: its entries in all four windows are lost,
every transport whose feed on it is aborted has left the feeding set, and where there was one, the hold with POWER has
reached it. Every other field is as it was. -/
def State.afterHoldUp (s : State) (i : Slot) (r : DepositRecord) : DepositRecord :=
  let r' := r.afterLosses i ((List.finRange 4).flatMap fun p => (s.port p).window)
  let aborted (p : PortId) : Bool := (s.feed? p).any fun f => f.slot = i
  let left := { r' with feeding := Vector.ofFn fun p : PortId => r'.feeding[p.val] && !aborted p }
  if (List.finRange 4).any aborted then left.afterHold fun h => { h with power := true } else left

/-! ### Jams (R108 to R111) -/

/-- The messages that the port has been sent between `s` and `t`: those of the losses, then `said`. -/
def SaidLast (pulled : Option Place) (w : List Entry) (words : List OutMessage) (s t : State) (p : PortId)
    (said : List OutMessage) : Prop :=
  ∃ before, (t.port p).out = (s.port p).out ++ before ++ said ∧ LossesSay pulled w words s p before

/-- R128: a CLOSING bundle of the port that the losses have taken into the queue has had its Strap Order. -/
def StrapsSent (s t : State) (p : PortId) : Prop :=
  ∀ pl b b' n, placePort pl = p → s.binding pl = .bound b → b.state = .closing → t.binding pl = .bound b' →
    b'.state = .strapping → b'.number = some n → .strapOrder (placePocket pl) n ∈ (t.port p).out

/-- A jam as it meets a port. -/
structure JamCase where
  /-- The CT-4 declares it (R108). -/
  declared : Bool
  /-- The pocket whose bundle it does not complete (R114). -/
  pulled : Option Place
  /-- The entries of the window, in the order of their losses (R106). -/
  lost : List Entry
  /-- Its event tests the pocket-full condition besides (R104). -/
  tested : Bool
  /-- What the pocket-full tests of its event say to the transport (R60, R92). -/
  words : List OutMessage

/-- A jam that loses the window of port `p` oldest first. -/
def State.jamAt (s : State) (p : PortId) (declared : Bool) (pulled : Option Place) : JamCase :=
  { declared := declared
    pulled := pulled
    lost := (s.port p).window
    tested := false
    words := (s.judgedByLosses p).out.drop (s.port p).out.length }

/-- R102: the jam of a Stacked for the pocket `k` that names the entry `e` of another pocket: the entry is lost, the
stray note marks the pocket, then the rest of the window is lost. -/
def State.misrouteAt (s : State) (p : PortId) (e : Entry) (k : Pocket) : JamCase :=
  let rest := (s.port p).window.filter fun x => x.seq ≠ e.seq
  let losing := Port.losing s.returnStop s.suspectStop
  let judged := rest.foldl losing ((losing (s.port p) e).strayed s.returnStop s.suspectStop k)
  { declared := true
    pulled := none
    lost := e :: rest
    tested := k.val < 2
    words := judged.out.drop (s.port p).out.length }

/-- R109, R111: the port and its feed after a jam that does not abort the feed. -/
def JammedAfter (j : JamCase) (s t : State) (p : PortId) (f : Feed) : Prop :=
  (t.port p).window = [] ∧
  (t.port p).refused = (s.port p).refused ∧ (t.port p).aborted = (s.port p).aborted ∧
  ∃ f', t.feed? p = some f' ∧
    f' = { f with
      state := .jammed
      stop := f.stopAfterLosses j.tested j.lost ((t.port p).Full s.returnStop s.suspectStop)
      lost := min (f.lost + (attributed j.lost).length) 65535
      jams := if f.state = .jammed then f.jams else f.jams + 1
      sinceJam := if f.state = .jammed then f.sinceJam else 0 } ∧
    SaidLast j.pulled j.lost j.words s t p (if j.declared then [.stop f'.stop true] else [])

/-- R64, R65, R110: the ports and the records after the jam that aborts the feed. End Refused stands behind the
messages that the losses produce (the model's choice, log 23). -/
def AbortedAtLimit (j : JamCase) (s t : State) (p : PortId) (f : Feed) : Prop :=
  (t.port p).window = [] ∧
  (t.port p).refused = (s.port p).refused ∧ (t.port p).aborted = (s.port p).aborted + 1 ∧
  (t.port p).state = (if 2 ≤ (s.port p).aborted + 1 then .locked .abortedFeeds else .ready) ∧
  SaidLast j.pulled j.lost j.words s t p [.endRefused .aborted] ∧
  FeedAborted (fun h => { h with jamLimit := true }) s t p f

/-- R108 to R111: `t` is `s` after a jam on the feed `f` of port `p`, before the governor judges the backlog. -/
def JamEffect (j : JamCase) (s t : State) (p : PortId) (f : Feed) : Prop :=
  SameButHall s t ∧ StacksAfterLosses j.lost (s.port p) (t.port p) ∧
  BundlesAfterLosses j.pulled p j.lost s t ∧ (∀ pl, placePort pl ≠ p → t.binding pl = s.binding pl) ∧
  (s.LossesFit p j.lost → ListsAfter (s.completedBy j.pulled p j.lost) s t) ∧ StrapsSent s t p ∧
  (f.state = .jammed ∨ f.jams + 1 < 3 →
    JammedAfter j s t p f ∧ (∀ x, x ≠ p → t.port x = s.port x) ∧
    ∀ i, t.record? i = (s.record? i).map (DepositRecord.afterLosses i j.lost)) ∧
  (f.state ≠ .jammed → 3 ≤ f.jams + 1 → AbortedAtLimit j s t p f)

/-- R108 to R111, R135: `t` is `s` after the event of a jam on the feed `f` of port `p`. -/
def JamTaken (j : JamCase) (s t : State) (p : PortId) (f : Feed) : Prop :=
  ∃ u, JamEffect j s u p f ∧ t = u.governed s.backlog

/-! ### Notes (chapter 4) -/

/-- The index of a Note Report (R179). -/
def reportedIndex (b : Byte) : Option DenomIndex :=
  if h : b.toNat < 12 then some ⟨b.toNat, h⟩ else none

/-- The fitness of a Note Report (R179). -/
def reportedFitness (b : Byte) : Fitness :=
  if b.toNat = 0 then .fit else .unfit

/-- R75: the window holds 8 entries, or one with the sequence. -/
def Port.WindowRefuses (q : Port) (seq : Byte) : Prop :=
  8 ≤ q.window.length ∨ ∃ e ∈ q.window, e.seq = seq

/-- R74: a report fails the order test under the feed `f`. -/
def Port.OutOfOrder (q : Port) (f : Feed) (seq : Byte) : Prop :=
  match f.state with
  | .active | .suspended => q.WindowRefuses seq ∨ seq ≠ f.expected
  | .ending _ => True
  | .jammed => q.WindowRefuses seq

/-- R88, R91: the port after a report has been routed to P0 or P1 at the time of the event. -/
def Port.routed (q : Port) (e : Entry) : Port :=
  { q with
    window := q.window ++ [e]
    out := q.out ++ [.pocketOrder e.seq e.pocket]
    p0 := if e.pocket = 0 then { q.p0 with inFlight := q.p0.inFlight + 1 } else q.p0
    p1 := if e.pocket = 1 then { q.p1 with inFlight := q.p1.inFlight + 1 } else q.p1 }

/-- R76, R88 step 3: a feed after a report has been routed under it. -/
def Feed.routed (f : Feed) : Feed :=
  { f with
    reported := min (f.reported + 1) 65535
    expected := if f.state = .jammed then f.expected else f.expected + 1 }

/-- R2, R81: a genuine note of this entry and fitness goes to a bundle of the fitness given; `none` is P0. -/
def DenomEntry.route (e : DenomEntry) : Fitness → Option BundleFitness
  | .fit =>
    if e.fitDisposition ≠ 0 then none
    else if e.unfitDisposition = 0 ∧ e.combine = 1 then some .any
    else some .fit
  | .unfit =>
    if e.unfitDisposition ≠ 0 then none
    else if e.fitDisposition = 0 ∧ e.combine = 1 then some .any
    else some .unfit

/-- R78 to R81: under the feed `f` on the record `r`, a report goes to P0 or P1 before any sort pocket is looked
for. The verdict is the byte of R179. -/
def TurnedAway (c : Configuration) (f : Feed) (r : DepositRecord) (index : Option DenomIndex) (fitness : Fitness)
    (verdict : Byte) (k : Pocket) : Prop :=
  match f.state with
  | .suspended | .jammed => k = 0
  | .ending _ => False
  | .active =>
    if verdict.toNat = 1 then k = 1
    else k = 0 ∧
      (verdict.toNat = 2 ∨ index = none ∨
        ∃ j, index = some j ∧ ((c.entry r.currency j).face = 0 ∨ (c.entry r.currency j).route fitness = none))

/-- R82: the cell of the note and the notes pending for the record have reached 65,535. -/
def DepositRecord.CellFull (r : DepositRecord) (j : DenomIndex) (fitness : Fitness) : Prop :=
  65535 ≤ (match fitness with
    | .fit => r.cells[j.val].fit
    | .unfit => r.cells[j.val].unfit) + r.pending

/-- R83: the bundle key that a note of the record in slot `i` seeks. -/
def soughtKey (i : Slot) (r : DepositRecord) (j : DenomIndex) (bf : BundleFitness) : BundleKey :=
  { currency := r.currency
    index := j
    fitness := bf
    group := match r.custody with
      | .segregated => .slot i
      | .pooled => .pool }

/-- R85: the pocket holds a bundle eligible for a note of the key and of the record in slot `i`. -/
def State.Eligible (s : State) (pl : Place) (key : BundleKey) (i : Slot) : Prop :=
  ∃ b, s.binding pl = .bound b ∧ b.key = key ∧ b.state = .opened ∧ b.stacked + b.inFlight < b.strap ∧
    ((∃ c ∈ b.contributions, c.slot = i) ∨ b.contributions.length < 8)

/-- R89: a bundle after a reservation for the record in slot `i`. -/
def Bundle.reserved (b : Bundle) (i : Slot) (ref : Reference) : Bundle :=
  { b with
    inFlight := b.inFlight + 1
    contributions :=
      if b.contributions.any fun c => c.slot = i then
        b.contributions.map fun c => if c.slot = i then { c with reserved := c.reserved + 1 } else c
      else b.contributions ++ [{ slot := i, reference := ref, fit := 0, unfit := 0, reserved := 1 }]
    state := if b.stacked + b.inFlight + 1 = b.strap then .filled else b.state }

/-! ### Confirmations (chapter 5) -/

/-- R100: the jam counts of a feed after one more confirmation. -/
def Feed.afterGoodNote (f : Feed) : Feed :=
  if 200 ≤ f.sinceJam + 1 then { f with sinceJam := 0, jams := 0 } else { f with sinceJam := f.sinceJam + 1 }

/-- R97: a bundle after the confirmation of a note of the record in slot `i`. -/
def Bundle.confirmed (b : Bundle) (i : Slot) (fitness : Fitness) : Bundle :=
  { b with
    stacked := b.stacked + 1
    inFlight := b.inFlight - 1
    contributions := b.contributions.map fun c =>
      if c.slot = i then
        match fitness with
        | .fit => { c with fit := c.fit + 1, reserved := c.reserved - 1 }
        | .unfit => { c with unfit := c.unfit + 1, reserved := c.reserved - 1 }
      else c }

/-- R23, R28, R97: the cells and the pending count of a record after the confirmation of a sorted note. -/
def DepositRecord.banded (r : DepositRecord) (j : DenomIndex) (fitness : Fitness) : DepositRecord :=
  { r with
    cells := r.cells.set j.val
      (match fitness with
      | .fit => { r.cells[j.val] with fit := r.cells[j.val].fit + 1 }
      | .unfit => { r.cells[j.val] with unfit := r.cells[j.val].unfit + 1 })
    pending := r.pending - 1 }

/-- R101: the confirmation drains the bundle. -/
def Bundle.DrainsAtNext (b : Bundle) : Bool :=
  b.inFlight ≤ 1 && (b.state = .filled || b.state = .closing)

/-- R101: the feed is ENDING and the entry is the last in the window. -/
def EndsAtNext (f : Feed) (w : List Entry) : Bool :=
  w.length ≤ 1 &&
    match f.state with
    | .ending _ => true
    | .active | .suspended | .jammed => false

/-- R63, R42, R36: `u` after the end of the feed `f` of port `p`, with the end count `n`, on its record `r`, has
completed: the transport has left the feeding set, with a FEED_MISMATCH hold where the counts differ (a reported
count of 65,535 is taken as saturated, log 9), End Done carries the counts, and the aborted-feed count is 0. -/
def State.ended (u : State) (p : PortId) (n : Nat) (f : Feed) (r : DepositRecord) : State :=
  let agrees : Bool := n = f.reported && f.reported < 65535
  let left : DepositRecord := { r with feeding := r.feeding.set p.val false }
  let r' : DepositRecord :=
    if agrees then
      if r.state = .counting ∧ ∀ x : PortId, left.feeding[x.val] = false then { left with idleSince := some u.now }
      else left
    else left.afterHold fun h => { h with feedMismatch := true }
  { u.setRecord f.slot (some r') with
    ports := Vector.ofFn fun x : PortId =>
      if x = p then
        { u.port p with
          state := .ready
          aborted := 0
          out := (u.port p).out ++ [.endDone f.reported f.banded f.suspect f.returned f.lost] }
      else if !agrees && r.state.Holdable && r.feeding[x.val] then (u.port x).takesHold true
      else u.port x }

/-- R63, R101: `u` after a confirmation on port `p`, whose feed is then `f`, on the record `r`: the end completes
where the feed is ENDING and the window is empty. -/
def State.endedIfDrained (u : State) (p : PortId) (f : Feed) (r : DepositRecord) : State :=
  match f.state with
  | .ending n => if (u.port p).window = [] then u.ended p n f r else u
  | .active | .suspended | .jammed => u

/-- R102, R104: `s` with the mark of a stray note in the pocket that it reached: one note more in P0 or P1, TAINTED
on a bundle, BLOCKED on a sort pocket without one. What the note does to the stop set is not in it. -/
def State.strayMarked (s : State) (p : PortId) (k : Pocket) : State :=
  match placeOf p k with
  | some pl =>
    match s.binding pl with
    | .bound b => s.setBinding pl (.bound { b with tainted := true })
    | .unbound | .blocked => s.setBinding pl .blocked
  | none =>
    let q := s.port p
    s.setPort p
      (if k = 0 then { q with p0 := { q.p0 with fill := min (q.p0.fill + 1) 65535 } }
      else { q with p1 := { q.p1 with fill := min (q.p1.fill + 1) 65535 } })

/-! ### The census (R164, R165) -/

/-- R164: the contributions of the bundles that a census of port `p` voids: those of its sort pockets shown empty
whose stack had no Strap Order. -/
def State.voidsAt (s : State) (p : PortId) (presence : Byte) : List Contribution :=
  (List.finRange 24).flatMap fun pl =>
    match s.binding pl with
    | .bound b =>
      if placePort pl = p ∧ presence.getLsbD (placePocket pl).val = false ∧
          b.state ≠ .strapping ∧ b.state ≠ .unconfirmed .strapping then b.contributions
      else []
    | .unbound | .blocked => []

/-- R68 step 3: a bundle as the census of its transport finds it. -/
def BundleState.awaiting : BundleState → BundleState
  | .opened => .unconfirmed .opened
  | .filled => .unconfirmed .filled
  | .closing => .unconfirmed .closing
  | .completeWaiting => .unconfirmed .completeWaiting
  | .strapping => .unconfirmed .strapping
  | .collectable => .collectable
  | .unconfirmed prior => .unconfirmed prior

/-- R52, R53, R68, R69: `u` as the census of a Hello on port `p` finds it, `q` being the port before the Hello: the
bundles of the transport are UNCONFIRMED, and the port is up or as locked as before, with an empty window, its counts
and marks set, and a Hello Answer that carries the pace given. -/
def State.awaitingCensus (u : State) (p : PortId) (q : Port) (presence : Byte) (pace : Nat) : State :=
  { u with
    bindings := Vector.ofFn fun pl : Place =>
      match u.binding pl with
      | .bound b => .bound (if placePort pl = p then { b with state := b.state.awaiting } else b)
      | .unbound => .unbound
      | .blocked => .blocked : State }.setPort p
    { state := match q.state with
        | .locked cause => .locked cause
        | .down | .ready | .feeding _ => .ready
      refused := q.refused
      aborted := q.aborted
      window := []
      p0 := { fill := 0, inFlight := 0, mark := presence.getLsbD 0 }
      p1 := { fill := 0, inFlight := 0, mark := presence.getLsbD 1 }
      out := q.out ++ [.helloAnswer pace] }

/-- R165: `u` after the census of port `p`: its bundles are decided one by one in ascending pocket order, each as
`State.decide` decides it (R164), its pockets that are not BOUND then are BLOCKED or UNBOUND as they are shown, and
the waiting list is promoted. -/
def State.censused (u : State) (p : PortId) (presence : Byte) : State :=
  let d := ((List.finRange 24).filter fun pl => placePort pl = p).foldl (fun x pl => x.decide presence pl) u
  { d with
    bindings := Vector.ofFn fun pl : Place =>
      match d.binding pl with
      | .bound b => .bound b
      | .unbound => if placePort pl = p ∧ presence.getLsbD (placePocket pl).val = true then .blocked else .unbound
      | .blocked => if placePort pl = p ∧ presence.getLsbD (placePocket pl).val = false then .unbound else .blocked
    : State }.promoted

/-! ### The laws of the whole part -/

/-- R13, R12: outside CONFIG_FAULT a running part's check word is current and every value is in range. -/
def State.ConfigurationLaw (s : State) : Prop :=
  s.running = true → s.configFault = false → s.checkWord = crc s.config.image ∧ s.config.Legal

/-- R19, R20, R30, R41, R43: the law of the records. -/
def State.RecordLaw (s : State) : Prop :=
  (∀ i r, s.record? i = some r →
    r.reference ≠ 0 ∧
    (r.holds ≠ {} ↔ r.state = .held) ∧
    (r.result ≠ none ↔ r.state = .balanced ∨ r.state = .discrepant ∨ r.state = .sealed) ∧
    (s.running = true → (r.idleSince ≠ none ↔ r.state = .counting ∧ ∀ p : PortId, r.feeding[p.val] = false)) ∧
    r.reopens ≤ 3 ∧ r.unrecognized ≤ 65535 ∧ r.returned ≤ 65535 ∧ r.lost ≤ 65535 ∧
    ∀ j : DenomIndex, r.cells[j.val].suspect ≤ 65535) ∧
  ∀ i j r r', s.record? i = some r → s.record? j = some r' → r.reference = r'.reference → i = j

/-- R51, R54, R60, R73, R91, R100: the law of one port. -/
def Port.Law (q : Port) : Prop :=
  q.window.length ≤ 8 ∧ (q.window.Pairwise fun a b => a.seq ≠ b.seq) ∧
  q.p0.inFlight = (entriesFor 0 q.window).length ∧ q.p1.inFlight = (entriesFor 1 q.window).length ∧
  ((∀ cause, q.state ≠ .locked cause) → q.refused < 5 ∧ q.aborted < 2) ∧ q.refused ≤ 5 ∧ q.aborted ≤ 2 ∧
  (∀ e ∈ q.window, ∀ i, e.slot = some i → ∃ f, q.state = .feeding f ∧ f.slot = i) ∧
  ∀ f, q.state = .feeding f →
    f.jams < 3 ∧ f.sinceJam < 200 ∧
    f.reported ≤ 65535 ∧ f.banded ≤ 65535 ∧ f.suspect ≤ 65535 ∧ f.returned ≤ 65535 ∧ f.lost ≤ 65535 ∧
    (f.state = .active → f.stop = {}) ∧ (f.state = .suspended → f.stop ≠ {})

/-- R53, R59, R60, R92: the law of the stop sets of a running part: POCKET_FULL is in a feed's stop set exactly while
its port meets the pocket-full condition, HOLD exactly while its record is HELD, and POWER exactly while the hold-up
timer runs, which it does only while the power warning is asserted (R154, R155). -/
def State.StopLaw (s : State) : Prop :=
  s.running = true →
  (s.holdUp ≠ none → s.warning = true) ∧
  ∀ p f, (s.port p).state = .feeding f →
    (f.stop.pocketFull = true ↔ (s.port p).Full s.returnStop s.suspectStop = true) ∧
    (f.stop.hold = true ↔ ∃ r, s.record? f.slot = some r ∧ r.state = .held) ∧
    (f.stop.power = true ↔ s.holdUp ≠ none)

/-- The law of every port. -/
def State.PortLaw (s : State) : Prop :=
  ∀ p, (s.port p).Law

/-- The bundle number of a queue entry. -/
def State.numberOf? (s : State) (e : QueueEntry) : Option (BitVec 32) :=
  (s.queued? e).bind fun b => b.number

/-- The sort pocket of a queue entry that still holds one. -/
def QueueEntry.place? : QueueEntry → Option Place
  | .inPocket pl => some pl
  | .lifted _ => none

/-- R123, R127 to R130: the law of the waiting list and the Collection Queue. -/
def State.ListsLaw (s : State) : Prop :=
  s.queue.length ≤ 16 ∧ s.waiting.Nodup ∧ (s.queue.filterMap QueueEntry.place?).Nodup ∧ s.nextNumber ≠ 0 ∧
  (∀ pl, pl ∈ s.waiting ↔
    s.bundleState? pl = some .completeWaiting ∨ s.bundleState? pl = some (.unconfirmed .completeWaiting)) ∧
  (∀ pl, .inPocket pl ∈ s.queue ↔
    s.bundleState? pl = some .strapping ∨ s.bundleState? pl = some (.unconfirmed .strapping)) ∧
  (∀ b, .lifted b ∈ s.queue → b.state = .collectable) ∧
  (∀ pl b, s.binding pl = .bound b → b.state ≠ .collectable ∧ b.place = pl) ∧
  (∀ pl b, s.binding pl = .bound b → (b.number ≠ none ↔ .inPocket pl ∈ s.queue)) ∧
  ∀ j x, (s.queue.map s.numberOf? ++ [some s.nextNumber])[j]? = some x →
    ∃ n, x = some n ∧ n ≠ 0 ∧
      ∀ y, (s.queue.map s.numberOf? ++ [some s.nextNumber])[j + 1]? = some y → y = some (numbersAfter 1 n)

/-- The pace that a message tells its transport. -/
def OutMessage.paceHeard : OutMessage → Option Nat
  | .helloAnswer x | .pace x => some x
  | .feedAccept _ _ | .feedRefuse _ | .pocketOrder _ _ | .strapOrder _ _ | .stop _ _ | .resume
  | .endDone _ _ _ _ _ | .endRefused _ => none

/-- R134, R136, R137: the law of the Pace Governor. -/
def State.GovernorLaw (s : State) : Prop :=
  s.effective ≤ 16 ∧
  (s.running = true → s.pace = s.paceFor s.effective) ∧
  ∀ p, (s.port p).isDown = false → ((s.port p).out.filterMap OutMessage.paceHeard).getLast? = some s.pace

/-- The notes of a record in the bundles bound, waiting or queued (R26). -/
def State.inBundles (s : State) (i : Slot) (ref : Reference) : Nat :=
  ((List.finRange 24).map fun pl => match s.bundle? pl with
    | some b => shareOf i ref b.contributions
    | none => 0).sum +
  (s.queue.map fun e => match e with
    | .lifted b => shareOf i ref b.contributions
    | .inPocket _ => 0).sum

/-- R26: the central accounting law. -/
def State.AccountingLaw (s : State) : Prop :=
  ∀ i r, s.record? i = some r → r.bandedTotal = s.inBundles i r.reference + r.collected + r.voided

/-- R117 to R119, R4: a bundle's counts are those of its contributions, of at most eight deposits, each with a note;
its strap size is in range, FILLED is exactly full, and only an OPEN, FILLED or CLOSING bundle has notes in
flight. -/
def Bundle.Law (b : Bundle) : Prop :=
  b.stacked = (b.contributions.map fun c => c.fit + c.unfit).sum ∧
  b.inFlight = (b.contributions.map fun c => c.reserved).sum ∧
  b.contributions.length ≤ 8 ∧ (b.contributions.Pairwise fun c d => c.slot ≠ d.slot) ∧
  (∀ c ∈ b.contributions, c.fit + c.unfit + c.reserved ≠ 0) ∧
  10 ≤ b.strap ∧ b.strap ≤ 200 ∧ b.stacked + b.inFlight ≤ b.strap ∧
  (b.state = .filled → b.stacked + b.inFlight = b.strap) ∧
  (b.inFlight ≠ 0 → b.state = .opened ∨ b.state = .filled ∨ b.state = .closing)

/-- A bundle record exists: bound to a pocket, or COLLECTABLE in the queue (R130). -/
def State.HasBundle (s : State) (b : Bundle) : Prop :=
  (∃ pl, s.binding pl = .bound b) ∨ .lifted b ∈ s.queue

/-- R117, R118: the law of the bundles: that of each bundle record, and every contribution names a record that
exists. -/
def State.BundleLaw (s : State) : Prop :=
  ∀ b, s.HasBundle b → b.Law ∧ ∀ c ∈ b.contributions, ∃ r, s.record? c.slot = some r ∧ r.reference = c.reference

/-- The entries of a window that are reserved in sort pockets for the record in slot `i`. -/
def sortedFor (i : Slot) (w : List Entry) : List Entry :=
  w.filter fun e => e.slot = some i && 2 ≤ e.pocket.val

/-- R28, R89, R117: on a running part, a record's pending count, a bundle's in-flight count and a contribution's
reserved count are the entries in the windows that they stand for. -/
def State.FlightLaw (s : State) : Prop :=
  s.running = true →
  (∀ i r, s.record? i = some r →
    r.pending = ((List.finRange 4).map fun p => (sortedFor i (s.port p).window).length).sum) ∧
  ∀ pl b, s.binding pl = .bound b →
    b.inFlight = (entriesFor (placePocket pl) (s.port (placePort pl)).window).length ∧
    ∀ c ∈ b.contributions,
      c.reserved = (entriesFor (placePocket pl) (lossesOf c.slot (s.port (placePort pl)).window)).length

/-- R77, R79 to R83, R89: an unattributed entry is for P0; an entry for a sort pocket is attributed and has an index,
and the bundle of that pocket holds a contribution of its slot. -/
def State.EntryLaw (s : State) : Prop :=
  ∀ p, ∀ e ∈ (s.port p).window,
    (e.slot = none → e.pocket = 0) ∧
    ∀ pl, placeOf p e.pocket = some pl →
      ∃ i b, e.slot = some i ∧ e.index ≠ none ∧ s.binding pl = .bound b ∧ ∃ c ∈ b.contributions, c.slot = i

/-- R27, R40, R54, R56: a feed is open only outside CONFIG_FAULT, on the record of its reference, which lists its
transport; a record that lists a transport is COUNTING or HELD, and on a running part that transport feeds it. -/
def State.FeedLaw (s : State) : Prop :=
  (∀ p f, (s.port p).state = .feeding f → s.configFault = false ∧
    ∃ r, s.record? f.slot = some r ∧ r.reference = f.reference ∧ r.feeding[p.val] = true) ∧
  ∀ i r (p : PortId), s.record? i = some r → r.feeding[p.val] = true →
    (r.state = .counting ∨ r.state = .held) ∧
    (s.running = true → ∃ f, (s.port p).state = .feeding f ∧ f.slot = i)

/-- R20, R82: a banded cell and the notes in flight to it are at most 65,535. -/
def State.CellLaw (s : State) : Prop :=
  ∀ i r (j : DenomIndex) g, s.record? i = some r →
    r.cell j g +
      ((List.finRange 4).map fun p =>
        ((sortedFor i (s.port p).window).filter fun e => e.index = some j && e.fitness = g).length).sum ≤ 65535

/-- The laws of the CT-4 together: the central accounting law (R26) and all that it rests on. -/
structure State.Sound (s : State) : Prop where
  accounting : s.AccountingLaw
  bundles : s.BundleLaw
  flight : s.FlightLaw
  entries : s.EntryLaw
  feeds : s.FeedLaw
  cells : s.CellLaw
  records : s.RecordLaw
  ports : s.PortLaw
  stops : s.StopLaw
  lists : s.ListsLaw
  configuration : s.ConfigurationLaw

end Sys2Proof.Machine
end

