-- ==== Sys2Proof/Certificates/Slice0/Obligations.lean ====
section
/-! DEFINITION. The statements about the CT-4 that are to be proved. -/

open Sys2Proof Sys2Proof.Machine

/-! ### The step -/

/-- A step takes the command at the front of the queue and runs `exec` on it with the rest of the queue. -/
def Obligations.StepRunsTheFrontCommand : Prop :=
  ∀ (c : Instr) (rest : List Instr) (s : State), s.pending = c :: rest →
    step s = exec c { s with pending := rest }

/-- The model's own choice (log 3): on an empty queue, a step is one millisecond of a running part and nothing
of any other; the expiries then due, and nothing else, join the queue. R44 and R156 say when an idle and a hold-up
expiry is due; that a flight is due when the clock equals its deadline (R105) is the model's reading (log 17). -/
def Obligations.TickBringsTheDueExpiries : Prop :=
  ∀ s : State, s.pending = [] →
    (s.running = false → step s = .next s) ∧
    (s.running = true → ∃ l, step s = .next { s with now := s.now + 1, pending := l } ∧
      (Instr.holdUpExpiry ∈ l ↔ ∃ t, s.holdUp = some t ∧ t.start + t.duration ≤ s.now + 1) ∧
      (∀ p seq, Instr.flightExpiry p seq ∈ l ↔
        ∃ e ∈ (s.port p).window, e.seq = seq ∧ e.deadline ≤ s.now + 1) ∧
      (∀ i, Instr.idleExpiry i ∈ l ↔ ∃ r start, s.record? i = some r ∧ r.idleSince = some start ∧
        s.idleLimit ≠ 0 ∧ start + s.idleLimit * 60000 ≤ s.now + 1) ∧
      ∀ c ∈ l, c = .holdUpExpiry ∨ (∃ p seq, c = .flightExpiry p seq) ∨ ∃ i, c = .idleExpiry i)

/-- The model's own choice: every command completes, whatever the state and whatever its operands, ill-formed ones
too (log 22): it stops nothing, it leaves the queue of commands as it is, and the clock (log 3, log 5) does not run
back. -/
def Obligations.EveryCommandCompletes : Prop :=
  ∀ (c : Instr) (s : State), ∃ t, exec c s = .next t ∧ t.pending = s.pending ∧ s.now ≤ t.now

/-! ### The Supervisor Link (chapter 9) -/

/-- R168, R169: a poll of `n` bytes shifts out 0xFF, then the answer of the link state, then 0xFF, and changes
nothing else. -/
def Obligations.PollShiftsOutTheLinkState : Prop :=
  ∀ (s : State) (n : Nat), s.running = true →
    (n = 0 → exec (.poll n) s = .next s) ∧
    (n ≠ 0 → ∃ l, exec (.poll n) s = .next { s with shifted := l } ∧ l.length = n ∧
      ∀ k, k < n → l[k]? = some
        (if k = 0 then 0xFF#8 else
          match s.link with
          | .idle => if k = 1 then 0x00#8 else 0xFF#8
          | .executing _ _ => if k = 1 then 0x01#8 else 0xFF#8
          | .holding r overrun =>
            if k = 1 then 0x02#8 else if k = 2 then r.code.byte else if k = 3 then (if overrun then 1#8 else 0#8)
            else if k = 4 then BitVec.ofNat 8 r.body.length else (r.body[k - 5]?).getD 0xFF#8))

/-- R168, R170, R171: a request frame at its end. In EXECUTING it is discarded and recorded; in IDLE and HOLDING
the link judges its code, then its framing, and hands it over. A frame of no bytes has no effect, and one that
begins with 0x00 is a poll. -/
def Obligations.RequestFrameIsJudgedByTheLink : Prop :=
  ∀ (s : State) (code : Byte) (rest : List Byte), s.running = true →
    exec (.requestFrame []) s = .next s ∧
    exec (.requestFrame (0 :: rest)) s = exec (.poll (rest.length + 1)) s ∧
    (code ≠ 0 →
      let becomes (l : LinkState) : Prop :=
        exec (.requestFrame (code :: rest)) s =
          .next { s with shifted := List.replicate (rest.length + 1) 0xFF#8, link := l }
      (∀ r o, s.link = .executing r o → becomes (.executing r true)) ∧
      ((∀ r o, s.link ≠ .executing r o) →
        (0x16 < code.toNat → becomes (.holding { code := .unknownRequest, body := [] } false)) ∧
        (code.toNat ≤ 0x16 →
          (rest = [] → becomes (.holding { code := .badLength, body := [] } false)) ∧
          ∀ len body, rest = len :: body →
            (len.toNat ≤ 250 ∧ body.length = len.toNat →
              becomes (.executing { code := code, body := body } false)) ∧
            (¬ (len.toNat ≤ 250 ∧ body.length = len.toNat) →
              becomes (.holding { code := .badLength, body := [] } false)))))

/-- The model's reading (log 2): a request command that finds the link IDLE or HOLDING is its frame followed by
its event; one that finds another request in execution is a frame discarded (R171). -/
def Obligations.RequestCommandIsFrameThenEvent : Prop :=
  ∀ (c : Instr) (r : Request) (s : State), Instr.asRequest c = some r → s.running = true → r.body.length ≤ 250 →
    ((∀ q o, s.link ≠ .executing q o) →
      ∃ u, exec (.requestFrame (r.code :: BitVec.ofNat 8 r.body.length :: r.body)) s = .next u ∧
        u.executes r.code r.body = true ∧ u.overrun = false ∧ exec c u = exec c s) ∧
    ∀ q o, s.link = .executing q o → q ≠ r →
      exec c s = .next { s with
        shifted := List.replicate (r.body.length + 2) 0xFF#8, link := .executing q true }

/-- R170, R177: every request tests its body length first: a wrong one is refused BAD_LENGTH and changes nothing,
and BAD_LENGTH is answered for no other reason. -/
def Obligations.WrongBodyLengthIsRefused : Prop :=
  ∀ (c : Instr) (r : Request) (s : State), Instr.asRequest c = some r → s.executes r.code r.body = true →
    (r.lengthFits = false → exec c s = .next (s.replies s .badLength [])) ∧
    (r.lengthFits = true → ∃ u code answer, code ≠ .badLength ∧ exec c s = .next (s.replies u code answer))

/-- R177: what the host lays out in the body of a request with fields is what the request reads, with every field at
every value its bytes can hold, and every body that is read is such a layout. Bodies of one byte and empty ones have
no layout and are not in it. -/
def Obligations.RequestBodiesRoundTrip : Prop :=
  (∀ d, readReference (referenceBody d) = some d) ∧
  (∀ b d, readReference b = some d → b = referenceBody d) ∧
  (∀ d : Declaration, d.breakdown.length ≤ 12 → readDeclaration d.body = some d) ∧
  (∀ b d, readDeclaration b = some d → b = d.body ∧ d.breakdown.length ≤ 12) ∧
  (∀ d : Amendment, d.breakdown.length ≤ 12 → readAmendment d.body = some d) ∧
  (∀ b d, readAmendment b = some d → b = d.body ∧ d.breakdown.length ≤ 12) ∧
  (∀ d : LookUpFields, readLookUp d.body = some d) ∧ (∀ b d, readLookUp b = some d → b = d.body) ∧
  (∀ d : ListFields, readListFields d.body = some d) ∧ (∀ b d, readListFields b = some d → b = d.body) ∧
  (∀ d : SealFields, readSeal d.body = some d) ∧ (∀ b d, readSeal b = some d → b = d.body) ∧
  (∀ d : DenominationFields, readDenomination d.body = some d) ∧
  (∀ b d, readDenomination b = some d → b = d.body) ∧
  (∀ d : Limits, readLimits d.image = some d) ∧ (∀ b d, readLimits b = some d → b = d.image) ∧
  (∀ d : Curve, readCurve d.image = some d) ∧ (∀ b d, readCurve b = some d → b = d.image)

/-- R49, R179, R180: a transport message that is sent is the message that is read, for every message with fields that
have a meaning, by its type byte and body and from its type, length and body bytes on the line; and every type byte and
body that is read is such a message. A type of the CT-4's own or of none, and a body of another length than its type's,
is read as no message: such a message, and one with a malformed body, is a discarded one, whose boundary its length byte
sets. A message of the CT-4 is its type byte, the length byte of that type's one body length, and a body that holds each
field at its place; on the line the next message begins behind it, and the messages of a port stand on its line in their
order. -/
def Obligations.TransportMessagesRoundTrip : Prop :=
  (∀ c p type body, c.wellFormed = true → messageBytes c = some (p, type, body) →
    readMessage p type body = some c ∧ body.length ≤ 255 ∧ bodyLengthOf type = some body.length ∧
    lineBytes c = some (p, [type, BitVec.ofNat 8 body.length] ++ body) ∧
    ∀ rest, readFrame p ([type, BitVec.ofNat 8 body.length] ++ body ++ rest) = some (c, rest)) ∧
  (∀ p type body c, readMessage p type body = some c →
    messageBytes c = some (p, type, body) ∧ c.wellFormed = true) ∧
  (∀ p type body,
    (type.toNat < 0x10 ∨ 0x17 < type.toNat ∨ bodyLengthOf type ≠ some body.length → readMessage p type body = none) ∧
    (body.length ≤ 255 → readMessage p type body = none → ∀ rest,
      readFrame p ([type, BitVec.ofNat 8 body.length] ++ body ++ rest) =
        some (.discardedMessage p type body false, rest))) ∧
  (∀ (m : OutMessage) (rest : List Byte),
    bodyLengthOf m.bytes.1 = some m.bytes.2.length ∧ m.bytes.2.length ≤ 10 ∧
    nextFrame (m.frame ++ rest) = some (m.bytes.1, m.bytes.2, rest) ∧
    let a := m.frame
    let heads (type length : Nat) : Prop := field a 0 1 = type ∧ field a 1 1 = length ∧ a.length = length + 2
    match m with
    | .helloAnswer x => heads 0x20 2 ∧ field a 2 2 = x % 65536
    | .feedAccept ref k => heads 0x21 5 ∧ field a 2 4 = ref.toNat ∧ field a 6 1 = k.val
    | .feedRefuse reason => heads 0x22 1 ∧
      [none, some .locked, some .transportBusy, some .power, some .config, some .unknownReference, some .recordState,
        some .feedLimit, some .reopenLimit][field a 2 1]? = some (some reason)
    | .pocketOrder seq k => heads 0x23 2 ∧ byteAt a 2 = seq ∧ field a 3 1 = k.val
    | .strapOrder k n => heads 0x24 5 ∧ field a 2 1 = k.val ∧ field a 3 4 = n.toNat
    | .stop set jam => heads 0x25 1 ∧ field a 2 1 = (if set.hold then 1 else 0) + (if set.pocketFull then 2 else 0) +
      (if set.power then 4 else 0) + (if jam then 8 else 0)
    | .resume => heads 0x26 0
    | .pace x => heads 0x27 2 ∧ field a 2 2 = x % 65536
    | .endDone reported banded suspect returned lost => heads 0x28 10 ∧ field a 2 2 = reported % 65536 ∧
      field a 4 2 = banded % 65536 ∧ field a 6 2 = suspect % 65536 ∧ field a 8 2 = returned % 65536 ∧
      field a 10 2 = lost % 65536
    | .endRefused reason => heads 0x29 1 ∧
      [none, some .jammed, some .noFeed, some .ending, some .aborted][field a 2 1]? = some (some reason)) ∧
  ∀ (q : Port) (m : OutMessage), (q.out = [] → q.line = []) ∧ (q.sends m).line = q.line ++ m.frame

/-! ### Currency Sets (chapter 1) -/

/-- R4, R5, R12: Set Denomination, test by test, and the entry, the check word and the answer of an accepted
one. -/
def Obligations.SetDenominationIsJudgedInOrder : Prop :=
  ∀ (s : State) (d : DenominationFields), s.executes 0x0E d.body = true →
    let meaningful : Prop :=
      d.currency.toNat ≤ 3 ∧ d.index.toNat ≤ 11 ∧ d.entry.face.toNat ≤ 100000000 ∧
      (d.entry.strap.toNat = 0 ∨ 10 ≤ d.entry.strap.toNat ∧ d.entry.strap.toNat ≤ 200) ∧
      d.entry.fitDisposition.toNat ≤ 1 ∧ d.entry.unfitDisposition.toNat ≤ 1 ∧ d.entry.combine.toNat ≤ 1
    let entry := if d.entry.strap.toNat = 0 then { d.entry with strap := 100#8 } else d.entry
    let config := { s.config with
      entries := s.config.entries.setIfInBounds (12 * d.currency.toNat + d.index.toNat) entry }
    let answers (u : State) (code : CompletionCode) (answer : List Byte) : Prop :=
      exec (.setDenomination d.body) s = .next (s.replies u code answer)
    (¬ meaningful → answers s .badField []) ∧
    (meaningful → s.configFault = false → s.SetNamed d.currency.toNat → answers s .inUse []) ∧
    (meaningful → s.configFault = true ∨ ¬ s.SetNamed d.currency.toNat →
      answers { s with config := config, checkWord := crc config.image } .ok (wordBytes (crc config.image)))

/-- R8, R9, R12: Set Limits writes the five values together; running idle timers at or past a new nonzero limit
expire, and every port's pocket-full condition is judged with the new thresholds. That the expiries fall inside the
event of the request, before the judging, is the model's choice (log 18). The premise is R43's: a timer runs only on a
record that no transport feeds (the law of the records). -/
def Obligations.SetLimitsActsAtOnce : Prop :=
  ∀ (s : State) (l : Limits), s.executes 0x0F l.image = true →
    (∀ i r, s.record? i = some r → r.idleSince ≠ none → ∀ p : PortId, r.feeding[p.val] = false) →
    let meaningful : Prop :=
      (50 ≤ l.flight.toNat ∧ l.flight.toNat ≤ 2000 ∧ 10 ∣ l.flight.toNat) ∧ l.idle.toNat ≤ 240 ∧
      (20 ≤ l.holdUp.toNat ∧ l.holdUp.toNat ≤ 200) ∧ (50 ≤ l.suspectStop.toNat ∧ l.suspectStop.toNat ≤ 300) ∧
      (100 ≤ l.returnStop.toNat ∧ l.returnStop.toNat ≤ 500)
    let config := { s.config with limits := l }
    let judged (r : DepositRecord) : DepositRecord := match r.idleSince with
      | none => r
      | some start =>
        if l.idle.toNat ≠ 0 ∧ start + l.idle.toNat * 60000 ≤ s.now then r.afterHold fun h => { h with idle := true }
        else r
    (¬ meaningful → exec (.setLimits l.image) s = .next (s.replies s .badField [])) ∧
    (meaningful → exec (.setLimits l.image) s =
      .next (s.replies { s with
        config := config
        checkWord := crc config.image
        records := s.records.map (Option.map judged)
        ports := s.ports.map fun q => q.takesFull l.returnStop.toNat l.suspectStop.toNat }
        .ok (wordBytes (crc config.image))))

/-- R10, R12, R136, R137: Set Pace Curve stores the nine points, one above 1,000 as 1,000, and H; the pace of the
current effective backlog follows, and goes to every port that is not DOWN where it changed. The premise bounds
the effective backlog as R134 does (the law of the governor). -/
def Obligations.SetPaceCurveIsStoredAndPaced : Prop :=
  ∀ (s : State) (c : Curve), s.executes 0x10 c.image = true → s.effective ≤ 16 →
    let curve : Curve := { c with points := c.points.map fun x => if 1000 < x.toNat then 1000#16 else x }
    let config := { s.config with curve := curve }
    let pace := paceOf curve.points s.effective
    (4 < c.hysteresis.toNat → exec (.setPaceCurve c.image) s = .next (s.replies s .badField [])) ∧
    (c.hysteresis.toNat ≤ 4 → exec (.setPaceCurve c.image) s =
      .next (s.replies { s with
        config := config
        checkWord := crc config.image
        pace := pace
        ports := if pace = s.pace then s.ports else s.portsUp fun q => q.sends (.pace pace) }
        .ok (wordBytes (crc config.image))))

/-- R11, R177: Read Configuration returns what the store holds: each entry image, sent back in a Set Denomination,
is that entry; selector 4 gives the limits, the curve, both check words and CONFIG_FAULT. It changes nothing. -/
def Obligations.ReadConfigurationReturnsTheStore : Prop :=
  ∀ (s : State) (sel : Byte), s.executes 0x11 [sel] = true →
    (4 < sel.toNat → exec (.readConfiguration [sel]) s = .next (s.replies s .badField [])) ∧
    (sel.toNat = 4 → ∃ answer, exec (.readConfiguration [sel]) s = .next (s.replies s .ok answer) ∧
      answer.length = 32 ∧
      readLimits (answer.take 8) = some s.config.limits ∧
      readCurve ((answer.drop 8).take 19) = some s.config.curve ∧
      answer.drop 27 = wordBytes s.checkWord ++ wordBytes (crc s.config.image) ++
        [if s.configFault then 1#8 else 0#8]) ∧
    ∀ k : SetId, sel.toNat = k.val →
      ∃ answer, exec (.readConfiguration [sel]) s = .next (s.replies s .ok answer) ∧ answer.length = 96 ∧
        ∀ i : DenomIndex,
          readDenomination ([sel, BitVec.ofNat 8 i.val] ++ (answer.drop (8 * i.val)).take 8) =
            some { currency := sel, index := BitVec.ofNat 8 i.val, entry := s.config.entry k i }

/-- R16, R17: Commit Configuration refuses a value out of range, and otherwise stores the check word of the present
contents and clears CONFIG_FAULT. Initialize Store is refused while a record or a bundle exists, and otherwise
writes the defaults, whose effects reach the stop sets and the pace. The premise on the effective backlog is its
range (R134). -/
def Obligations.CommitAndInitializeLeaveTheFault : Prop :=
  (∀ s : State, s.executes 0x12 [] = true →
      (¬ s.config.Legal → exec (.commitConfiguration []) s = .next (s.replies s .badField [])) ∧
      (s.config.Legal → exec (.commitConfiguration []) s =
        .next (s.replies { s with checkWord := crc s.config.image, configFault := false }
          .ok (wordBytes (crc s.config.image))))) ∧
  ∀ s : State, s.executes 0x13 [] = true → s.effective ≤ 16 →
      let config : Configuration :=
        { entries := Vector.replicate 48
            { face := 0, strap := 100, fitDisposition := 0, unfitDisposition := 0, combine := 0 }
          limits := { flight := 600, idle := 30, holdUp := 60, suspectStop := 200, returnStop := 300 }
          curve := { points := #v[1000, 1000, 1000, 900, 750, 500, 250, 100, 0], hysteresis := 2 } }
      let pace := paceOf config.curve.points s.effective
      (¬ s.NothingHeld → exec (.initializeStore []) s = .next (s.replies s .inUse [])) ∧
      (s.NothingHeld → exec (.initializeStore []) s =
        .next (s.replies { s with
          config := config
          nextNumber := 1
          configFault := false
          checkWord := crc config.image
          pace := pace
          ports := s.ports.map fun q =>
            let q' := q.takesFull 300 200
            if pace = s.pace ∨ q.isDown = true then q' else q'.sends (.pace pace) }
          .ok (wordBytes (crc config.image))))

/-- R12, R13: every step keeps the law of the configuration; and whatever the command, the configuration and its
check word are as they were, or the command is one of the five requests that write them and the check word is that
of the new contents. -/
def Obligations.ConfigurationLawIsKept : Prop :=
  (∀ s t : State, s.ConfigurationLaw → step s = .next t → t.ConfigurationLaw) ∧
  ∀ (c : Instr) (s t : State), exec c s = .next t →
    (t.config = s.config ∧ t.checkWord = s.checkWord) ∨
    (t.checkWord = crc t.config.image ∧
      ∃ r, Instr.asRequest c = some r ∧ r.code ∈ [0x0E#8, 0x0F#8, 0x10#8, 0x12#8, 0x13#8])

/-! ### The Deposit Table (chapter 2) -/

/-- R31: the refusals of Declare, in their order. A refused Declare changes nothing. -/
def Obligations.DeclareRefusesInOrder : Prop :=
  ∀ (s : State) (d : Declaration), d.breakdown.length ≤ 12 → s.executes 0x01 d.body = true →
    let refuses (code : CompletionCode) : Prop := exec (.declare d.body) s = .next (s.replies s code [])
    let meaningful : Prop :=
      d.reference ≠ 0 ∧ d.custody.toNat ≤ 1 ∧ BreakdownShaped d.breakdown ∧
      ∃ k : SetId, d.currency.toNat = k.val ∧ BreakdownEnabled s.config k d.breakdown
    let full : Prop := ∀ i, s.record? i ≠ none
    (s.configFault = true → refuses .configFault) ∧
    (s.configFault = false → ¬ meaningful → refuses .badField) ∧
    (s.configFault = false → meaningful → ¬ s.Unnamed d.reference → refuses .duplicate) ∧
    (s.configFault = false → meaningful → s.Unnamed d.reference → full → refuses .tableFull) ∧
    (s.configFault = false → meaningful → s.Unnamed d.reference → ¬ full →
      ∀ k : SetId, d.currency.toNat = k.val → d.breakdown ≠ [] →
        breakdownValue s.config k d.breakdown ≠ d.total.toNat → refuses .breakdownTotal)

/-- R31, R22: an accepted Declare writes one record, in the lowest-numbered FREE slot, and answers the slot. -/
def Obligations.DeclareWritesTheLowestFreeSlot : Prop :=
  ∀ (s : State) (d : Declaration) (k : SetId) (i : Slot), d.breakdown.length ≤ 12 →
    s.executes 0x01 d.body = true → s.configFault = false →
    d.reference ≠ 0 → d.custody.toNat ≤ 1 → d.currency.toNat = k.val →
    BreakdownShaped d.breakdown → BreakdownEnabled s.config k d.breakdown →
    s.Unnamed d.reference → s.record? i = none → (∀ j, j < i → s.record? j ≠ none) →
    (d.breakdown = [] ∨ breakdownValue s.config k d.breakdown = d.total.toNat) →
    ∃ stored, StoredAs d.breakdown stored ∧
      exec (.declare d.body) s = .next (s.replies
        (s.setRecord i (some
          { reference := d.reference
            customer := d.customer
            currency := k
            custody := if d.custody.toNat = 0 then .segregated else .pooled
            state := .declared
            declaredTotal := d.total.toNat
            breakdown := stored
            cells := Vector.replicate 12 { fit := 0, unfit := 0, suspect := 0 }
            unrecognized := 0, returned := 0, lost := 0, collected := 0, voided := 0
            feeding := Vector.replicate 4 false
            pending := 0, reopens := 0, holds := {}, flags := {}, result := none, idleSince := none }))
        .ok [BitVec.ofNat 8 i.val])

/-- R32, R22: Amend, test by test; an accepted one writes the total and the breakdown, and takes a settled record
to COUNTING or DECLARED without its result. -/
def Obligations.AmendIsJudgedInOrder : Prop :=
  ∀ (s : State) (d : Amendment), d.breakdown.length ≤ 12 → s.executes 0x02 d.body = true →
    let refuses (code : CompletionCode) : Prop := exec (.amend d.body) s = .next (s.replies s code [])
    let shaped : Prop := d.reference ≠ 0 ∧ BreakdownShaped d.breakdown
    (s.configFault = true → refuses .configFault) ∧
    (s.configFault = false → ¬ shaped → refuses .badField) ∧
    (s.configFault = false → shaped → s.Unnamed d.reference → refuses .notFound) ∧
    ∀ i r, s.configFault = false → shaped → s.Named d.reference i r →
      let enabled : Prop := BreakdownEnabled s.config r.currency d.breakdown
      let agrees : Prop :=
        d.breakdown = [] ∨ breakdownValue s.config r.currency d.breakdown = d.total.toNat
      let settled : Prop := r.state = .balanced ∨ r.state = .discrepant
      let unfed : Prop := ∀ p : PortId, r.feeding[p.val] = false
      (¬ enabled → refuses .badField) ∧
      (enabled → r.state = .sealed → refuses .sealed) ∧
      (enabled → r.state ≠ .sealed → ¬ agrees → refuses .breakdownTotal) ∧
      (enabled → r.state ≠ .sealed → agrees → ∃ stored st idle, StoredAs d.breakdown stored ∧
        (¬ settled → st = r.state ∧ idle = r.idleSince) ∧
        (settled → r.holdsCredit = true → st = .counting ∧ (unfed → idle = some s.now) ∧
          (¬ unfed → idle = r.idleSince)) ∧
        (settled → r.holdsCredit = false → st = .declared ∧ idle = r.idleSince) ∧
        ∃ result, (settled → result = none) ∧ (¬ settled → result = r.result) ∧
          exec (.amend d.body) s = .next (s.replies
            (s.setRecord i (some { r with
              declaredTotal := d.total.toNat, breakdown := stored, state := st, idleSince := idle,
              result := result }))
            .ok [recordStateByte (some st)]))

/-- R33, R46, R47, R18: Cancel frees the slot of a DECLARED record that holds no credit and has nothing pending;
Seal takes a BALANCED record, and a DISCREPANT one with the accept flag, to SEALED and changes nothing else; Retire
frees the slot of a SEALED record whose notes have all left custody. Every other use is refused and changes
nothing. -/
def Obligations.CancelSealAndRetireEndARecord : Prop :=
  ∀ (s : State) (ref : Reference),
    (s.executes 0x03 (referenceBody ref) = true →
      let answers (u : State) (code : CompletionCode) : Prop :=
        exec (.cancel (referenceBody ref)) s = .next (s.replies u code [])
      (ref = 0 → answers s .badField) ∧ (ref ≠ 0 → s.Unnamed ref → answers s .notFound) ∧
      ∀ i r, s.Named ref i r →
        (r.state = .declared ∧ r.holdsCredit = false ∧ r.pending = 0 → answers (s.setRecord i none) .ok) ∧
        (¬ (r.state = .declared ∧ r.holdsCredit = false ∧ r.pending = 0) → answers s .wrongState)) ∧
    (s.executes 0x0A (referenceBody ref) = true →
      let answers (u : State) (code : CompletionCode) : Prop :=
        exec (.retire (referenceBody ref)) s = .next (s.replies u code [])
      (ref = 0 → answers s .badField) ∧ (ref ≠ 0 → s.Unnamed ref → answers s .notFound) ∧
      ∀ i r, s.Named ref i r →
        (r.state ≠ .sealed → answers s .wrongState) ∧
        (r.state = .sealed → r.bandedTotal ≠ r.collected + r.voided → answers s .inBundle) ∧
        (r.state = .sealed → r.bandedTotal = r.collected + r.voided → answers (s.setRecord i none) .ok)) ∧
  (∀ d : SealFields, s.executes 0x09 d.body = true →
      let answers (u : State) (code : CompletionCode) : Prop :=
        exec (.sealRecord d.body) s = .next (s.replies u code [])
      (1 < d.accept.toNat ∨ d.reference = 0 → answers s .badField) ∧
      (d.accept.toNat ≤ 1 → d.reference ≠ 0 → s.Unnamed d.reference → answers s .notFound) ∧
      ∀ i r, d.accept.toNat ≤ 1 → s.Named d.reference i r →
        let takes : Prop := r.state = .balanced ∨ r.state = .discrepant ∧ d.accept.toNat = 1
        (takes → answers (s.setRecord i (some { r with state := .sealed })) .ok) ∧
        (¬ takes → answers s .wrongState))

/-- R34, R178: Look Up answers every field of the record at its offset in the record image, and changes nothing.
The premises bound the two lists as R20 and R146 do. -/
def Obligations.LookUpAnswersTheRecord : Prop :=
  ∀ (s : State) (d : LookUpFields), s.executes 0x04 d.body = true →
    let refuses (code : CompletionCode) : Prop := exec (.lookUp d.body) s = .next (s.replies s code [])
    let shows (i : Slot) (r : DepositRecord) : Prop :=
      ∃ a, exec (.lookUp d.body) s = .next (s.replies s .ok a) ∧ a.length = 233 ∧
        field a 0 1 = i.val ∧ field a 1 1 = (recordStateByte (some r.state)).toNat ∧
        field a 2 4 = r.reference.toNat ∧ field a 6 3 = r.customer.toNat ∧ field a 9 1 = r.currency.val ∧
        field a 10 1 = r.custody.byte.toNat ∧ field a 11 6 = r.declaredTotal % 2 ^ 48 ∧
        field a 17 1 = r.breakdown.length ∧
        (∀ j e, r.breakdown[j]? = some e →
          field a (18 + 3 * j) 1 = e.index.val ∧ field a (19 + 3 * j) 2 = e.count % 65536) ∧
        (∀ j : DenomIndex,
          field a (54 + 6 * j.val) 2 = r.cells[j.val].fit % 65536 ∧
          field a (56 + 6 * j.val) 2 = r.cells[j.val].unfit % 65536 ∧
          field a (58 + 6 * j.val) 2 = r.cells[j.val].suspect % 65536) ∧
        field a 126 2 = r.unrecognized % 65536 ∧ field a 128 2 = r.returned % 65536 ∧
        field a 130 2 = r.lost % 65536 ∧ field a 132 4 = r.collected % 2 ^ 32 ∧
        field a 136 4 = r.voided % 2 ^ 32 ∧
        (∀ p : PortId, (byteAt a 140).getLsbD p.val = r.feeding[p.val]) ∧ (byteAt a 140).toNat < 16 ∧
        field a 141 1 = r.pending % 256 ∧ field a 142 1 = r.reopens % 256 ∧
        byteAt a 143 = r.holds.byte ∧ byteAt a 144 = r.flags.byte ∧
        field a 145 1 = (if r.idleSince = none then 0 else 1) ∧
        field a 146 2 = (match r.idleSince with
          | none => 0
          | some start => min 65535 ((s.now - start) / 60000)) ∧
        (r.result = none → ∀ j, 148 ≤ j → j < 233 → byteAt a j = 0) ∧
        ∀ t, r.result = some t →
          field a 148 1 = 1 ∧ field a 149 1 = t.outcome.byte.toNat ∧ field a 150 6 = t.counted % 2 ^ 48 ∧
          field a 156 6 = t.suspect % 2 ^ 48 ∧ field a 162 8 = (BitVec.ofInt 64 t.difference).toNat ∧
          field a 170 1 = (if t.suspectMark then 1 else 0) ∧
          (t.mismatches = none → field a 171 1 = 0) ∧
          ∀ l, t.mismatches = some l → field a 171 1 = 1 ∧ field a 172 1 = l.length ∧
            ∀ j m, l[j]? = some m → field a (173 + 5 * j) 1 = m.index.val ∧
              field a (174 + 5 * j) 4 = (BitVec.ofInt 32 m.difference).toNat
    let listsFit (r : DepositRecord) : Prop :=
      r.breakdown.length ≤ 12 ∧ ∀ t l, r.result = some t → t.mismatches = some l → l.length ≤ 12
    (1 < d.selector.toNat → refuses .badField) ∧
    (d.selector.toNat = 0 →
      (d.value = 0 → refuses .badField) ∧ (d.value ≠ 0 → s.Unnamed d.value → refuses .notFound) ∧
      ∀ i r, s.Named d.value i r → listsFit r → shows i r) ∧
    (d.selector.toNat = 1 →
      (127 < d.value.toNat → refuses .badField) ∧
      ∀ i : Slot, d.value.toNat = i.val →
        (s.record? i = none →
          exec (.lookUp d.body) s = .next (s.replies s .ok [BitVec.ofNat 8 i.val, 0])) ∧
        ∀ r, s.record? i = some r → listsFit r → shows i r)

/-- R35, R174: List answers, in slot order, the first sixteen records from the start slot whose state is in the
filter, and where to go on. -/
def Obligations.ListAnswersTheNextSixteen : Prop :=
  ∀ (s : State) (d : ListFields), s.executes 0x05 d.body = true →
    let bad : Prop := d.filter.getLsbD 0 = true ∨ d.filter.getLsbD 7 = true ∨ 127 < d.start.toNat
    let matching (i : Slot) : Prop := ∃ r, s.record? i = some r ∧ d.start.toNat ≤ i.val ∧
      (d.filter = 0 ∨ d.filter.getLsbD (recordStateByte (some r.state)).toNat = true)
    (bad → exec (.list d.body) s = .next (s.replies s .badField [])) ∧
    (¬ bad → ∃ l : List (Slot × DepositRecord),
      (∀ e ∈ l, s.record? e.1 = some e.2 ∧ matching e.1) ∧ (l.Pairwise fun e e' => e.1 < e'.1) ∧
      l.length ≤ 16 ∧
      (∀ i, matching i → (∃ r, (i, r) ∈ l) ∨ l.length = 16 ∧ ∀ e ∈ l, e.1 < i) ∧
      ∃ next : Byte,
        (∀ e, l.getLast? = some e → l.length = 16 → e.1.val < 127 → next = BitVec.ofNat 8 (e.1.val + 1)) ∧
        (l.length ≠ 16 ∨ (∃ e, l.getLast? = some e ∧ e.1.val = 127) → next = 0xFF#8) ∧
        exec (.list d.body) s = .next (s.replies s .ok ([BitVec.ofNat 8 l.length, next] ++
          l.flatMap fun e => [BitVec.ofNat 8 e.1.val] ++ bytesOf 4 e.2.reference.toNat ++
            [recordStateByte (some e.2.state)])))

/-- R36, R37, R60: Hold takes a record to HELD with the reason HOST, and HOLD joins the stop set of every feed on
it; a HELD record adds the reason alone; a SEALED one is refused. -/
def Obligations.HoldStopsTheRecordAndItsFeeds : Prop :=
  ∀ (s : State) (ref : Reference), s.executes 0x07 (referenceBody ref) = true →
    let refuses (code : CompletionCode) : Prop :=
      exec (.hold (referenceBody ref)) s = .next (s.replies s code [])
    (ref = 0 → refuses .badField) ∧ (ref ≠ 0 → s.Unnamed ref → refuses .notFound) ∧
    ∀ i r, s.Named ref i r →
      (r.state = .sealed → refuses .sealed) ∧
      (r.state ≠ .sealed →
        let r' := r.afterHold fun h => { h with host := true }
        exec (.hold (referenceBody ref)) s = .next (s.replies
          { s.setRecord i (some r') with
            ports := Vector.ofFn fun p : PortId =>
              if r.state.Holdable && r.feeding[p.val] then (s.port p).takesHold true else s.port p }
          .ok [5, r'.holds.byte]))

/-- R39, R60: Release clears the reasons of a HELD record, takes it to COUNTING or DECLARED by what it holds, and
HOLD leaves the stop set of every feed on it; any other record is refused. -/
def Obligations.ReleaseEndsTheHold : Prop :=
  ∀ (s : State) (ref : Reference), s.executes 0x08 (referenceBody ref) = true →
    let refuses (code : CompletionCode) : Prop :=
      exec (.release (referenceBody ref)) s = .next (s.replies s code [])
    (ref = 0 → refuses .badField) ∧ (ref ≠ 0 → s.Unnamed ref → refuses .notFound) ∧
    ∀ i r, s.Named ref i r →
      (r.state ≠ .held → refuses .wrongState) ∧
      (r.state = .held →
        let fed : Prop := ∃ p : PortId, r.feeding[p.val] = true
        let counting : Prop := r.holdsCredit = true ∨ fed ∨ r.pending ≠ 0
        ∃ st idle, (counting → st = .counting) ∧ (¬ counting → st = .declared) ∧
          (counting → ¬ fed → idle = some s.now) ∧ (¬ counting ∨ fed → idle = r.idleSince) ∧
          exec (.release (referenceBody ref)) s = .next (s.replies
            { s.setRecord i (some { r with state := st, holds := {}, idleSince := idle }) with
              ports := Vector.ofFn fun p : PortId =>
                if r.feeding[p.val] then (s.port p).takesHold false else s.port p }
            .ok [recordStateByte (some st)]))

/-- R18, R21, R23, R26, R29, R41: whatever the command, a slot is filled only by Declare, with a DECLARED record,
and freed only by Cancel and Retire; and a record that stays keeps its reference, customer code, set and custody
mode, and no command lowers a banded cell, its collected, voided or reopen count, or clears a flag. -/
def Obligations.RecordsAreFixedAndOnlyGrow : Prop :=
  ∀ (c : Instr) (s t : State) (i : Slot), exec c s = .next t →
    match s.record? i, t.record? i with
    | none, none => True
    | none, some r' => (∃ b, c = .declare b) ∧ r'.state = .declared
    | some r, none => (∃ b, c = .cancel b) ∧ r.state = .declared ∨ (∃ b, c = .retire b) ∧ r.state = .sealed
    | some r, some r' =>
      r'.reference = r.reference ∧ r'.customer = r.customer ∧ r'.currency = r.currency ∧ r'.custody = r.custody ∧
      (∀ j : DenomIndex, r.cells[j.val].fit ≤ r'.cells[j.val].fit ∧ r.cells[j.val].unfit ≤ r'.cells[j.val].unfit) ∧
      r.collected ≤ r'.collected ∧ r.voided ≤ r'.voided ∧ r.reopens ≤ r'.reopens ∧
      (r.flags.cellLimit = true → r'.flags.cellLimit = true) ∧
      (r.flags.saturated = true → r'.flags.saturated = true) ∧
      (r.flags.voidedNotes = true → r'.flags.voidedNotes = true)

/-- R46, R38, R45: whatever the command, a SEALED record stays SEALED with its declaration, cells, counts, hold
reasons and result until Retire frees its slot; only its collected and voided counts and VOIDED_NOTES may move,
and at start-up its volatile fields. The premise is R45's: no feed and no note in flight is the record's. -/
def Obligations.SealedRecordsAreFrozen : Prop :=
  ∀ (c : Instr) (s t : State) (i : Slot) (r : DepositRecord), exec c s = .next t →
    s.record? i = some r → r.state = .sealed →
    (∀ p f, s.feed? p = some f → f.slot ≠ i) → (∀ p, ∀ e ∈ (s.port p).window, e.slot ≠ some i) →
    (t.record? i = none ∧ ∃ b, c = .retire b) ∨
    ∃ r', t.record? i = some r' ∧
      r' = { r with
        collected := r'.collected, voided := r'.voided
        flags := { r.flags with voidedNotes := r'.flags.voidedNotes }
        feeding := r'.feeding, pending := r'.pending, idleSince := r'.idleSince } ∧
      ((∀ cause, c ≠ .startUp cause) → c ≠ .resetLineAsserted → c ≠ .powerFailure →
        r'.feeding = r.feeding ∧ r'.pending = r.pending ∧ r'.idleSince = r.idleSince)

/-- R19, R20, R30, R41, R43: every step keeps the law of the records. -/
def Obligations.RecordLawIsKept : Prop :=
  ∀ s t : State, s.RecordLaw → step s = .next t → t.RecordLaw

/-! ### Settlement (chapter 7) -/

/-- R143 to R148: the figures of a settlement, each with its bounds: the counted value, the suspect value, the
difference, the mismatch list, the outcome by the first row that holds, and the suspect mark. The premises are the
ranges of R142. -/
def Obligations.SettlementFollowsTheFigures : Prop :=
  ∀ (r : DepositRecord) (face : DenomIndex → Nat),
    (∀ j : DenomIndex, face j ≤ 100000000 ∧ r.cells[j.val].fit ≤ 65535 ∧ r.cells[j.val].unfit ≤ 65535 ∧
      r.cells[j.val].suspect ≤ 65535) →
    (r.breakdown.Pairwise fun a b => a.index ≠ b.index) → (∀ e ∈ r.breakdown, e.count ≤ 65535) →
    r.declaredTotal < 2 ^ 48 →
    let t := r.settlement face
    let declared (j : DenomIndex) : Nat := ((r.breakdown.filter fun e => e.index = j).map fun e => e.count).sum
    let difference (j : DenomIndex) : Int := (r.cells[j.val].fit + r.cells[j.val].unfit : Int) - declared j
    t.counted = (∑ j : DenomIndex, (r.cells[j.val].fit + r.cells[j.val].unfit) * face j) ∧
    t.counted ≤ 157284000000000 ∧
    t.suspect = (∑ j : DenomIndex, r.cells[j.val].suspect * face j) ∧
    t.suspect ≤ 78642000000000 ∧
    t.difference = (t.counted : Int) - (r.declaredTotal : Int) ∧
    -281474976710655 ≤ t.difference ∧ t.difference ≤ 157284000000000 ∧
    (t.mismatches = none ↔ r.breakdown = []) ∧
    (∀ l, t.mismatches = some l →
      (l.Pairwise fun a b => a.index.val < b.index.val) ∧
      ∀ j x, { index := j, difference := x } ∈ l ↔ x = difference j ∧ x ≠ 0) ∧
    (∀ j, -65535 ≤ difference j ∧ difference j ≤ 131070) ∧
    t.outcome =
      (if t.difference = 0 ∧ (t.mismatches = none ∨ t.mismatches = some []) then .exact
      else if t.difference = 0 then .mixed
      else if 0 < t.difference then .over
      else if t.difference + t.suspect = 0 then .shortBySuspect
      else .short) ∧
    (t.suspectMark = true ↔ 0 < (∑ j : DenomIndex, r.cells[j.val].suspect) + r.unrecognized)

/-- R140, R141, R124, R122, R128: Settle, test by test. An accepted one stores the result and stops the idle timer; a
POOLED record closes no bundle, a SEGREGATED one closes the bundles of its own slot short, those that complete enter
the queue with their Strap Orders or wait, and the governor judges the backlog that leaves. A Pace stands last (the
model's choice where no rule gives the order, log 10). -/
def Obligations.SettleStoresTheResult : Prop :=
  ∀ (s : State) (ref : Reference), s.executes 0x06 (referenceBody ref) = true →
    let body := referenceBody ref
    let refuses (code : CompletionCode) : Prop := exec (.settle body) s = .next (s.replies s code [])
    (s.configFault = true → refuses .configFault) ∧
    (s.configFault = false → ref = 0 → refuses .badField) ∧
    (s.configFault = false → ref ≠ 0 → s.Unnamed ref → refuses .notFound) ∧
    ∀ i r, s.configFault = false → s.Named ref i r →
      let fed : Prop := ∃ p : PortId, r.feeding[p.val] = true
      let result := r.settlement fun j => (s.config.entry r.currency j).face.toNat
      let st : RecordState := if result.outcome = .exact then .balanced else .discrepant
      let u := s.setRecord i (some { r with state := st, result := some result, idleSince := none })
      (r.state ≠ .declared ∧ r.state ≠ .counting → refuses .wrongState) ∧
      (r.state = .declared ∨ r.state = .counting → fed → refuses .activeFeeds) ∧
      (r.state = .declared ∨ r.state = .counting → ¬ fed →
        (r.custody = .pooled →
          exec (.settle body) s =
            .next (s.replies u .ok ([recordStateByte (some st), 0, 0] ++ result.image))) ∧
        (r.custody = .segregated →
          let sel (b : Bundle) : Bool := b.key.group = .slot i
          exec (.settle body) s = .next (s.replies ((u.shortClosed sel).governed s.backlog) .ok
            ([recordStateByte (some st), BitVec.ofNat 8 (s.placesWith (Closable sel)).length,
              BitVec.ofNat 8 (s.placesWith (ClosesDrained sel)).length] ++ result.image))))

/-! ### Bundles and the Pace Governor (chapter 6) -/

/-- R131, R132, R26, R127, R128, R178: Take Bundle hands over a COLLECTABLE head, whose notes join the collected counts
of the records that it still names, and the waiting list is promoted, each promoted bundle with its number and its
Strap Order; Look Bundle shows the head and changes nothing. Both answer the bundle image. A Pace stands last (log
10). The premises bound the contributions as R118 does and the waiting list as R127 does. -/
def Obligations.TakeBundleHandsOverTheHead : Prop :=
  ∀ s : State,
    let image (b : Bundle) (a : List Byte) : Prop :=
      a.length = 70 ∧ (∀ n, b.number = some n → field a 0 4 = n.toNat) ∧ field a 4 1 = b.key.currency.val ∧
      field a 5 1 = b.key.index.val ∧ byteAt a 6 = b.key.fitness.byte ∧ byteAt a 7 = b.key.group.byte ∧
      field a 8 1 = (placePort b.place).val ∧ field a 9 1 = (placePocket b.place).val ∧
      field a 10 1 = b.strap % 256 ∧ field a 11 1 = b.stacked % 256 ∧
      field a 12 1 = (if b.short then 1 else 0) + (if b.tainted then 2 else 0) ∧
      field a 13 1 = b.contributions.length ∧
      ∀ j c, b.contributions[j]? = some c →
        field a (14 + 7 * j) 1 = c.slot.val ∧ field a (15 + 7 * j) 4 = c.reference.toNat ∧
        field a (19 + 7 * j) 1 = c.fit % 256 ∧ field a (20 + 7 * j) 1 = c.unfit % 256
    (s.executes 0x0B [] = true →
      let refuses (code : CompletionCode) : Prop := exec (.takeBundle []) s = .next (s.replies s code [])
      (s.queue = [] → refuses .empty) ∧
      (∀ pl rest, s.queue = .inPocket pl :: rest → refuses .notReady) ∧
      ∀ b rest, s.queue = .lifted b :: rest → b.contributions.length ≤ 8 → s.waiting.Nodup →
        let u : State := { s with
          queue := rest
          records := Vector.ofFn fun i : Slot => (s.record? i).map fun r =>
            { r with collected := r.collected + shareOf i r.reference b.contributions } }
        ∃ a, image b a ∧ exec (.takeBundle []) s = .next (s.replies (u.promoted.governed s.backlog) .ok a)) ∧
    (s.executes 0x0C [] = true →
      (s.queue = [] → exec (.lookBundle []) s = .next (s.replies s .empty [])) ∧
      ∀ e rest b, s.queue = e :: rest → s.queued? e = some b → b.contributions.length ≤ 8 →
        ∃ a, image b a ∧
          exec (.lookBundle []) s = .next (s.replies s .ok (a ++
            [b.state.byte, b.state.priorByte, BitVec.ofNat 8 s.queue.length,
              BitVec.ofNat 8 s.waiting.length])))

/-- R125, R122, R123, R128: Flush Pooled closes the pooled bundles of the set short, in ascending transport and
pocket order: those that complete enter the queue with a number and a Strap Order each, or wait. It answers how many
it made CLOSING and how many of those completed. A Pace stands last (log 10). -/
def Obligations.FlushPooledClosesShort : Prop :=
  ∀ (s : State) (k : Byte), s.executes 0x0D [k] = true →
    let sel (b : Bundle) : Bool := b.key.currency.val = k.toNat && b.key.group = .pool
    (3 < k.toNat → exec (.flushPooled [k]) s = .next (s.replies s .badField [])) ∧
    (k.toNat ≤ 3 →
      exec (.flushPooled [k]) s = .next (s.replies ((s.shortClosed sel).governed s.backlog) .ok
        [BitVec.ofNat 8 (s.placesWith (Closable sel)).length,
          BitVec.ofNat 8 (s.placesWith (ClosesDrained sel)).length]))

/-- R135: whatever the command, but for start-up and the loss of supply or reset, the effective backlog follows
the backlog as R135 gives, judged once, with H as it stands. -/
def Obligations.GovernorJudgesEveryEvent : Prop :=
  ∀ (c : Instr) (s t : State), exec c s = .next t →
    (∀ cause, c ≠ .startUp cause) → c ≠ .resetLineAsserted → c ≠ .powerFailure →
    t.effective =
      if t.backlog = s.backlog then s.effective
      else if s.effective ≤ t.backlog then t.backlog
      else if t.backlog + s.hysteresis < s.effective then t.backlog + s.hysteresis
      else s.effective

/-- R134, R136, R137: every step keeps the law of the governor: the effective backlog is at most 16, the pace is
that of the curve, and it is the last pace that every port that is not DOWN has been told. -/
def Obligations.GovernorLawIsKept : Prop :=
  ∀ s t : State, s.GovernorLaw → step s = .next t → t.GovernorLaw

/-- R123, R127 to R130: every step keeps the law of the waiting list and the Collection Queue. -/
def Obligations.ListsLawIsKept : Prop :=
  ∀ s t : State, s.ListsLaw → step s = .next t → t.ListsLaw

/-! ### The part as a whole (chapters 3, 8, 9) -/

/-- R70, R175, R177: Read Status answers the status image of 130 bytes, every field at its offset, and changes nothing.
That the stop set of a port without a feed is sent as 0 is the model's choice (log 24); the other bytes of the feed that
is absent are R175's. -/
def Obligations.ReadStatusReportsThePart : Prop :=
  ∀ s : State, s.executes 0x14 [] = true →
    ∃ a, exec (.readStatus []) s = .next (s.replies s .ok a) ∧ a.length = 130 ∧
      field a 0 1 = (if s.causes.powerUp then 1 else 0) + (if s.causes.resetLine then 2 else 0) +
        (if s.causes.powerWarning then 4 else 0) ∧
      field a 1 1 = (if s.configFault then 1 else 0) ∧ field a 2 2 = s.checkWord.toNat ∧
      field a 4 1 = (if s.warning then 1 else 0) ∧
      field a 5 2 = s.suspectStop % 65536 ∧ field a 7 2 = s.returnStop % 65536 ∧
      field a 125 1 = s.queue.length % 256 ∧ field a 126 1 = s.waiting.length % 256 ∧
      field a 127 2 = s.pace % 65536 ∧
      field a 129 1 =
        ((List.finRange 128).filter fun i => (s.record? i).any fun r => r.state = .held).length ∧
      ∀ p : PortId,
        let o := 9 + 29 * p.val
        let q := s.port p
        field a o 1 = q.state.byte.toNat ∧ field a (o + 1) 1 = q.state.lockByte.toNat ∧
        field a (o + 2) 1 = q.refused % 256 ∧ field a (o + 3) 1 = q.aborted % 256 ∧
        ((∀ f, q.state ≠ .feeding f) →
          (∀ j, 4 ≤ j → j < 21 → j ≠ 9 → byteAt a (o + j) = 0) ∧ byteAt a (o + 9) = 0) ∧
        (∀ f, q.state = .feeding f →
          field a (o + 4) 1 = f.state.byte.toNat ∧ field a (o + 5) 4 = f.reference.toNat ∧
          field a (o + 9) 1 = (if f.stop.hold then 1 else 0) + (if f.stop.pocketFull then 2 else 0) +
            (if f.stop.power then 4 else 0) ∧
          field a (o + 10) 2 = f.reported % 65536 ∧ field a (o + 12) 2 = f.banded % 65536 ∧
          field a (o + 14) 2 = f.suspect % 65536 ∧ field a (o + 16) 2 = f.returned % 65536 ∧
          field a (o + 18) 2 = f.lost % 65536 ∧ field a (o + 20) 1 = f.jams % 256) ∧
        field a (o + 21) 1 = q.window.length % 256 ∧ field a (o + 22) 2 = q.p0.fill % 65536 ∧
        field a (o + 24) 1 = q.p0.inFlight % 256 ∧ field a (o + 25) 2 = q.p1.fill % 65536 ∧
        field a (o + 27) 1 = q.p1.inFlight % 256 ∧
        field a (o + 28) 1 = (if q.p0.mark then 1 else 0) + (if q.p1.mark then 2 else 0)

/-- R162, R67: Clear Causes clears the flags that its set names and answers the flags as they then stand. Release
Transport makes a LOCKED port READY, leaves a READY or FEEDING one as it is, and sets both its counts to 0. A set
or a transport that has no meaning is refused, and so is a port that is DOWN. -/
def Obligations.ClearCausesAndReleaseTransport : Prop :=
  (∀ (s : State) (named : Byte), s.executes 0x15 [named] = true →
      (7 < named.toNat → exec (.clearCauses [named]) s = .next (s.replies s .badField [])) ∧
      (named.toNat ≤ 7 →
        let up := s.causes.powerUp && !named.getLsbD 0
        let line := s.causes.resetLine && !named.getLsbD 1
        let warned := s.causes.powerWarning && !named.getLsbD 2
        exec (.clearCauses [named]) s = .next (s.replies
          { s with causes := { powerUp := up, resetLine := line, powerWarning := warned } }
          .ok [(if up then 1#8 else 0) + (if line then 2#8 else 0) + (if warned then 4#8 else 0)]))) ∧
  ∀ (s : State) (n : Byte), s.executes 0x16 [n] = true →
      (3 < n.toNat → exec (.releaseTransport [n]) s = .next (s.replies s .badField [])) ∧
      ∀ p : PortId, n.toNat = p.val →
        let answers (st : PortState) (b : Byte) : Prop := exec (.releaseTransport [n]) s =
          .next (s.replies (s.setPort p { s.port p with state := st, refused := 0, aborted := 0 }) .ok [b])
        match (s.port p).state with
        | .down => exec (.releaseTransport [n]) s = .next (s.replies s .wrongState [])
        | .ready => answers .ready 1
        | .feeding f => answers (.feeding f) 2
        | .locked _ => answers .ready 1

/-- R176: the Attention output of a running part is asserted exactly while one of its five conditions holds, and it
is deasserted while the reset line is asserted. -/
def Obligations.AttentionFollowsItsConditions : Prop :=
  ∀ s : State,
    (s.resetLine = true → s.attention = false) ∧
    (s.running = true → (s.attention = true ↔
      (∃ b rest, s.queue = .lifted b :: rest) ∨
      (∃ i r, s.record? i = some r ∧ r.state = .held) ∨
      (∃ p cause, (s.port p).state = .locked cause) ∨
      s.configFault = true ∨ s.warning = true))

/-! ### Transport Ports and feeds (chapter 3) -/

/-- R52, R53, R36, R64, R68, R69, R84, R115, R127, R128, R164, R165: after a Hello the port is up or as locked as
before, with an empty window and its pockets as the presence flags show them; the Hello Answer carries the pace and
stands before the Strap Orders of the census; every sort pocket of the transport has been decided. Step by step: the
window is lost, with the lists and the next number after the bundles that this completes, and a feed is aborted with
TRANSPORT, with HOLD to the other feeds on its record (the state u); then the census decides each bundle of the
transport as `State.decide` does, which the next statement gives pocket by pocket, the waiting list is promoted and
the governor judges. The bundles shown empty are voided with CUSTODY, with HOLD to the feeds on the records that this
takes to HELD. Another port is sent that HOLD, then the Strap Orders of the promotions, then a Pace (log 10); another
transport's pockets change only by promotion. The premise is R84's: a COLLECTABLE bundle is bound nowhere; the law of
the lists is another statement. -/
def Obligations.HelloBringsUpThePort : Prop :=
  ∀ (s : State) (p : PortId) (presence : Byte), s.running = true → s.LostInRange →
    (∀ pl b, s.binding pl = .bound b → b.state ≠ .collectable) →
    let q := s.port p
    ∃ u t straps, exec (.hello p presence) s = .next t ∧
      SameButHall s u ∧ BundlesAfterLosses none p q.window s u ∧
      (∀ pl, placePort pl ≠ p → u.binding pl = s.binding pl) ∧
      (∀ f, q.state = .feeding f → FeedAborted (fun h => { h with transport := true }) s u p f) ∧
      ((∀ f, q.state ≠ .feeding f) →
        (∀ i, u.record? i = (s.record? i).map (DepositRecord.afterLosses i q.window)) ∧
        ∀ x, x ≠ p → u.port x = s.port x) ∧
      (s.LossesFit p q.window → ListsAfter (s.completedBy none p q.window) s u) ∧
      SameButHallGoverned s t ∧
      (s.ListsLaw →
        t = ((u.awaitingCensus p q presence t.pace).censused p presence).governed s.backlog (some p)) ∧
      (∀ pl, placePort pl ≠ p → t.binding pl = s.binding pl ∨
        ∃ b n, s.binding pl = .bound b ∧ b.state = .completeWaiting ∧ pl ∈ s.waiting ∧ .inPocket pl ∈ t.queue ∧
          t.binding pl = .bound { b with state := .strapping, number := some n }) ∧
      (∀ i, t.record? i = (u.record? i).map (DepositRecord.afterVoid i (u.voidsAt p presence))) ∧
      t.port p =
        { state := match q.state with
            | .locked cause => .locked cause
            | .down | .ready | .feeding _ => .ready
          refused := q.refused
          aborted := q.aborted
          window := []
          p0 := { fill := 0, inFlight := 0, mark := presence.getLsbD 0 }
          p1 := { fill := 0, inFlight := 0, mark := presence.getLsbD 1 }
          out := q.out ++ [.helloAnswer t.pace] ++ straps } ∧
      (∀ m ∈ straps, ∃ k n, m = .strapOrder k n) ∧
      (∀ x, x ≠ p → ∃ straps',
        let y := (u.portsHeld fun i r => contributes i r.reference (u.voidsAt p presence))[x.val]
        t.port x = { y with
          out := y.out ++ straps' ++ if t.pace = s.pace ∨ y.isDown = true then [] else [.pace t.pace] } ∧
        ∀ m ∈ straps', ∃ k n, m = .strapOrder k n) ∧
      ∀ pl, placePort pl = p → match t.binding pl with
        | .unbound => presence.getLsbD (placePocket pl).val = false
        | .blocked => presence.getLsbD (placePocket pl).val = true
        | .bound b => b.state = .opened ∨ b.state = .completeWaiting ∨ b.state = .strapping

/-- R164, R115, R36: the census decides an UNCONFIRMED bundle by its prior state and by whether its pocket is shown
occupied; a voided one reaches the records that it names, with HOLD to the feeds on those that CUSTODY takes to HELD.
A pocket without an UNCONFIRMED bundle it leaves as it is. The premises are that the bundle's port is up and that a
STRAPPING one has its number. -/
def Obligations.CensusDecidesByPriorStateAndPresence : Prop :=
  (∀ (s : State) (presence : Byte) (pl : Place),
    (∀ b prior, s.binding pl = .bound b → b.state ≠ .unconfirmed prior) → s.decide presence pl = s) ∧
  ∀ (s : State) (presence : Byte) (pl : Place) (b : Bundle) (prior : PriorState),
    s.binding pl = .bound b → b.state = .unconfirmed prior → (s.port (placePort pl)).isDown = false →
    let t := s.decide presence pl
    let p := placePort pl
    let becomes (st : BundleState) : State := s.setBinding pl (.bound { b with state := st })
    (presence.getLsbD (placePocket pl).val = true →
      match prior with
      | .opened | .filled => t = becomes .opened
      | .completeWaiting => t = becomes .completeWaiting
      | .strapping => ∀ n, b.number = some n →
        t = (becomes .strapping).setPort p ((s.port p).sends (.strapOrder (placePocket pl) n))
      | .closing =>
        (s.queue.length < 16 ∧ s.waiting = [] →
          t = { (s.setBinding pl (.bound { b with state := .strapping, number := some s.nextNumber })).setPort p
              ((s.port p).sends (.strapOrder (placePocket pl) s.nextNumber)) with
            queue := s.queue ++ [.inPocket pl]
            nextNumber := numbersAfter 1 s.nextNumber }) ∧
        (¬ (s.queue.length < 16 ∧ s.waiting = []) →
          t = { becomes .completeWaiting with waiting := s.waiting ++ [pl] })) ∧
    (presence.getLsbD (placePocket pl).val = false →
      match prior with
      | .strapping =>
        t = { s.setBinding pl .unbound with
          queue := s.queue.map fun e =>
            if e = .inPocket pl then .lifted { b with state := .collectable } else e }
      | .opened | .filled | .closing | .completeWaiting =>
        t = s.voided pl b)

/-- R56, R58, R41: the refusals of Feed Start, test by test, and what each changes: test 6 raises the
refused-reference count and locks the port at 5, test 9 holds the record, no other changes more than the outgoing
order. -/
def Obligations.FeedStartRefusesInOrder : Prop :=
  ∀ (s : State) (p : PortId) (ref : Reference), s.running = true →
    let q := s.port p
    let becomes (u : State) : Prop := exec (.feedStart p ref) s = .next u
    let refuses (why : RefuseReason) : Prop := becomes (s.setPort p (q.sends (.feedRefuse why)))
    match q.state with
    | .down => becomes s
    | .locked _ => refuses .locked
    | .feeding _ => refuses .transportBusy
    | .ready =>
      (s.warning = true → refuses .power) ∧
      (s.warning = false → s.configFault = true → refuses .config) ∧
      (s.warning = false → s.configFault = false → ref = 0 ∨ s.Unnamed ref →
        becomes (s.setPort p { q with
          out := q.out ++ [.feedRefuse .unknownReference]
          refused := q.refused + 1
          state := if 5 ≤ q.refused + 1 then .locked .referenceAttempts else .ready })) ∧
      ∀ i r, s.warning = false → s.configFault = false → s.Named ref i r →
        (r.state = .held ∨ r.state = .sealed → refuses .recordState) ∧
        (r.state ≠ .held → r.state ≠ .sealed → (∀ x : PortId, r.feeding[x.val] = true) → refuses .feedLimit) ∧
        (r.state = .balanced ∨ r.state = .discrepant → 3 ≤ r.reopens → (∃ x : PortId, r.feeding[x.val] = false) →
          becomes { s.setRecord i (some (r.afterHold fun h => { h with reopenLimit := true })) with
            ports := Vector.ofFn fun x : PortId =>
              if x = p then q.sends (.feedRefuse .reopenLimit)
              else if r.feeding[x.val] then (s.port x).takesHold true
              else s.port x })

/-- R57, R40, R41, R54: an accepted Feed Start creates the feed, SUSPENDED with POCKET_FULL where the pocket-full
condition holds, puts the transport into the feeding set, reopens a settled record, and answers Feed Accept, with
Stop behind it for a suspended feed. -/
def Obligations.FeedStartOpensAFeed : Prop :=
  ∀ (s : State) (p : PortId) (ref : Reference) (i : Slot) (r : DepositRecord), s.running = true →
    (s.port p).state = .ready → s.warning = false → s.configFault = false → s.Named ref i r →
    (∃ x : PortId, r.feeding[x.val] = false) →
    let settled : Prop := r.state = .balanced ∨ r.state = .discrepant
    r.state = .declared ∨ r.state = .counting ∨ settled ∧ r.reopens < 3 →
    let q := s.port p
    let full := q.Full s.returnStop s.suspectStop
    let f : Feed :=
      { slot := i, reference := ref, state := if full then .suspended else .active
        stop := { hold := false, pocketFull := full, power := false }
        expected := 0, reported := 0, banded := 0, suspect := 0, returned := 0, lost := 0, jams := 0, sinceJam := 0 }
    let q' : Port := { q with
      state := .feeding f
      refused := 0
      out := q.out ++ [.feedAccept ref r.currency] ++ if full then [.stop f.stop false] else [] }
    ∃ result reopens, (settled → result = none ∧ reopens = r.reopens + 1) ∧
      (¬ settled → result = r.result ∧ reopens = r.reopens) ∧
      exec (.feedStart p ref) s = .next ((s.setPort p q').setRecord i (some { r with
        state := .counting, feeding := r.feeding.set p.val true, idleSince := none
        result := result, reopens := reopens }))

/-- R61, R63, R42: Feed End is answered by the state of the port and of its feed. An ACTIVE or SUSPENDED feed
becomes ENDING, and with an empty window its end completes at once: the transport leaves the feeding set, with a
FEED_MISMATCH hold where the counts differ, and End Done carries the counts. A reported count of 65,535 is taken
as saturated (log 9). -/
def Obligations.FeedEndIsAnswered : Prop :=
  ∀ (s : State) (p : PortId) (count : BitVec 16), s.running = true →
    let q := s.port p
    let becomes (u : State) : Prop := exec (.feedEnd p count) s = .next u
    let refuses (why : EndRefusal) : Prop := becomes (s.setPort p (q.sends (.endRefused why)))
    match q.state with
    | .down => becomes s
    | .ready | .locked _ => refuses .noFeed
    | .feeding f =>
      match f.state with
      | .jammed => refuses .jammed
      | .ending _ => refuses .ending
      | .active | .suspended =>
        (q.window ≠ [] →
          becomes (s.setPort p { q with state := .feeding { f with state := .ending count.toNat } })) ∧
        ∀ r, q.window = [] → s.record? f.slot = some r → becomes (s.ended p count.toNat f r)

/-- R51, R53, R54, R59, R60, R73, R91, R92, R100: every step keeps the law of the ports and, under that law and that of
the feeds, the law of the stop sets: on a running part POCKET_FULL is in a feed's stop set exactly while its port meets
the pocket-full condition, HOLD exactly while its record is HELD, and POWER exactly while the hold-up timer runs. -/
def Obligations.PortLawIsKept : Prop :=
  ∀ s t : State, step s = .next t →
    (s.PortLaw → t.PortLaw) ∧ (s.PortLaw → s.FeedLaw → s.StopLaw → t.StopLaw)

/-! ### Note routing and pocket binding (chapter 4) -/

/-- R75, R77: on a port without a feed, a report is discarded where the window holds 8 entries or one with its
sequence, and otherwise goes to P0, unattributed: an entry, a Pocket Order and P0's in-flight count, and nothing
else. A port that is DOWN discards it (R52). -/
def Obligations.NoteReportWithoutAFeedGoesToP0 : Prop :=
  ∀ (s : State) (p : PortId) (seq index fitness verdict : Byte), s.running = true →
    noteFieldsValid index fitness verdict = true → (∀ f, (s.port p).state ≠ .feeding f) →
    let q := s.port p
    let e : Entry :=
      { seq := seq, pocket := 0, slot := none, index := reportedIndex index, fitness := reportedFitness fitness
        deadline := s.now + s.flightLimit }
    (q.state = .down ∨ q.WindowRefuses seq → exec (.noteReport p seq index fitness verdict) s = .next s) ∧
    (q.state ≠ .down → ¬ q.WindowRefuses seq →
      exec (.noteReport p seq index fitness verdict) s = .next (s.setPort p (q.routed e)))

/-- R78 to R82, R87, R88, R92: under a feed, a report that passes the order test and is turned away before the
pocket search, or finds no sort pocket, goes to P0 or P1, attributed; at the cell limit CELL_LIMIT is set. The
entry, the Pocket Order, the feed's counts and the pocket's in-flight count are all it changes, and the
pocket-full condition is judged after the Pocket Order. -/
def Obligations.NoteReportTurnedAwayGoesToItsStack : Prop :=
  ∀ (s : State) (p : PortId) (seq index fitness verdict : Byte) (f : Feed) (r : DepositRecord) (k : Pocket),
    s.running = true → noteFieldsValid index fitness verdict = true → (s.port p).state = .feeding f →
    s.record? f.slot = some r → ¬ (s.port p).OutOfOrder f seq →
    let q := s.port p
    let n := reportedIndex index
    let g := reportedFitness fitness
    let e : Entry :=
      { seq := seq, pocket := k, slot := some f.slot, index := n, fitness := g, deadline := s.now + s.flightLimit }
    let q' := { q.routed e with state := .feeding f.routed }.takesFull s.returnStop s.suspectStop
    let sought (j : DenomIndex) (bf : BundleFitness) : Prop :=
      f.state = .active ∧ verdict.toNat = 0 ∧ n = some j ∧ (s.config.entry r.currency j).face ≠ 0 ∧
      (s.config.entry r.currency j).route g = some bf
    (TurnedAway s.config f r n g verdict k →
      exec (.noteReport p seq index fitness verdict) s = .next (s.setPort p q')) ∧
    (∀ j bf, k = 0 → sought j bf → r.CellFull j g →
      exec (.noteReport p seq index fitness verdict) s =
        .next ((s.setPort p q').setRecord f.slot (some { r with flags := { r.flags with cellLimit := true } }))) ∧
    ∀ j bf, k = 0 → sought j bf → ¬ r.CellFull j g →
      (∀ pl, placePort pl = p → ¬ s.Eligible pl (soughtKey f.slot r j bf) f.slot ∧ s.binding pl ≠ .unbound) →
      exec (.noteReport p seq index fitness verdict) s = .next (s.setPort p q')

/-- R83, R85, R86, R88 to R90: a genuine note with a place goes to the first eligible bundle of its transport, or
else to a new bundle in the lowest UNBOUND sort pocket, and is reserved there; the record's pending count and the
feed's counts rise, and nothing else changes. -/
def Obligations.NoteReportIsReservedInABundle : Prop :=
  ∀ (s : State) (p : PortId) (seq index fitness verdict : Byte) (f : Feed) (r : DepositRecord)
    (j : DenomIndex) (bf : BundleFitness) (pl : Place),
    s.running = true → noteFieldsValid index fitness verdict = true → (s.port p).state = .feeding f →
    s.record? f.slot = some r → ¬ (s.port p).OutOfOrder f seq → f.state = .active → verdict.toNat = 0 →
    reportedIndex index = some j → (s.config.entry r.currency j).face ≠ 0 →
    (s.config.entry r.currency j).route (reportedFitness fitness) = some bf →
    ¬ r.CellFull j (reportedFitness fitness) → placePort pl = p →
    let key := soughtKey f.slot r j bf
    let q := s.port p
    let e : Entry :=
      { seq := seq, pocket := placePocket pl, slot := some f.slot, index := some j
        fitness := reportedFitness fitness, deadline := s.now + s.flightLimit }
    let becomes (b : Bundle) : Prop := exec (.noteReport p seq index fitness verdict) s =
      .next (((s.setPort p { q.routed e with state := .feeding f.routed }).setBinding pl
        (.bound (b.reserved f.slot r.reference))).setRecord f.slot (some { r with pending := r.pending + 1 }))
    (s.Eligible pl key f.slot → (∀ x, placePort x = p → x < pl → ¬ s.Eligible x key f.slot) →
      ∀ b, s.binding pl = .bound b → becomes b) ∧
    ((∀ x, placePort x = p → ¬ s.Eligible x key f.slot) → s.binding pl = .unbound →
      (∀ x, placePort x = p → x < pl → s.binding x ≠ .unbound) →
      becomes
        { key := key, place := pl, strap := (s.config.entry r.currency j).strap.toNat, stacked := 0, inFlight := 0
          contributions := [], short := false, tainted := false, state := .opened, number := none })

/-! ### Stacking, credit and jams (chapter 5) -/

/-- R97, R100, R101, R123, R128: a confirmation at a sort pocket credits the record's cell, the contribution, the
bundle and the feed, and removes the entry; where it drains a FILLED or CLOSING bundle that bundle completes, and
where it empties the window of an ENDING feed the end completes, behind a Pace (log 10; a saturated reported count is
log 9). The premises are the laws of the window. -/
def Obligations.StackedCreditsASortedNote : Prop :=
  ∀ (s : State) (p : PortId) (e : Entry) (pl : Place) (f : Feed) (r : DepositRecord) (b : Bundle) (j : DenomIndex),
    s.running = true → (s.port p).state = .feeding f → e ∈ (s.port p).window → e.slot = some f.slot →
    placeOf p e.pocket = some pl → e.index = some j → s.record? f.slot = some r → s.binding pl = .bound b →
    ((s.port p).window.Pairwise fun x y => x.seq ≠ y.seq) →
    let q := s.port p
    let f' := { f with banded := min (f.banded + 1) 65535 }.afterGoodNote
    let r' := r.banded j e.fitness
    let credited :=
      ((s.setPort p { q with window := q.window.filter fun x => x.seq ≠ e.seq, state := .feeding f' }).setBinding pl
        (.bound (b.confirmed f.slot e.fitness))).setRecord f.slot (some r')
    let u := if b.DrainsAtNext then credited.completing [pl] else credited
    exec (.stacked p e.seq (BitVec.ofNat 8 e.pocket.val)) s =
      .next ((u.governed s.backlog).endedIfDrained p f' r')

/-- R98, R99, R100, R101, R63: a confirmation at P0 or P1 moves one note from the in-flight count to the fill count; an
attributed one credits the record (returned at P0; at P1 the SUSPECT cell of an enabled index, or the unrecognized
count) and the feed. Where the entry, attributed or not, is the last of an ENDING feed's window, the end completes (a
saturated reported count is log 9). An attributed entry whose feed so ends is that feed's own (the law of the
ports). -/
def Obligations.StackedCreditsAStackedNote : Prop :=
  ∀ (s : State) (p : PortId) (e : Entry), s.running = true → (s.port p).state ≠ .down → e ∈ (s.port p).window →
    ((s.port p).window.Pairwise fun x y => x.seq ≠ y.seq) →
    let q := s.port p
    let becomes (u : State) : Prop := exec (.stacked p e.seq (BitVec.ofNat 8 e.pocket.val)) s = .next u
    let stack (c : StackCount) : StackCount :=
      { c with fill := min (c.fill + 1) 65535, inFlight := c.inFlight - 1 }
    let window := q.window.filter fun x => x.seq ≠ e.seq
    let q0 := { q with window := window, p0 := stack q.p0 }
    let q1 := { q with window := window, p1 := stack q.p1 }
    (e.slot = none → e.pocket = 0 →
      ((∀ f, q.state = .feeding f → EndsAtNext f q.window = false) → becomes (s.setPort p q0)) ∧
      ∀ f r, q.state = .feeding f → s.record? f.slot = some r →
        becomes ((s.setPort p q0).endedIfDrained p f r)) ∧
    ∀ f i r, q.state = .feeding f → e.slot = some i → s.record? i = some r →
      i = f.slot ∨ EndsAtNext f q.window = false →
      let credited (q : Port) (f : Feed) (r : DepositRecord) : State :=
        ((s.setPort p { q with state := .feeding f }).setRecord i (some r)).endedIfDrained p f r
      (e.pocket = 0 →
        becomes (credited q0 { f with returned := min (f.returned + 1) 65535 }.afterGoodNote
          { r with
            returned := min (r.returned + 1) 65535
            flags := { r.flags with saturated := r.flags.saturated || 65535 ≤ r.returned } })) ∧
      (e.pocket = 1 →
        let f' := { f with suspect := min (f.suspect + 1) 65535 }.afterGoodNote
        (∀ j : DenomIndex, e.index = some j → (s.config.entry r.currency j).face ≠ 0 →
          becomes (credited q1 f'
            { r with
              cells := r.cells.set j.val
                { r.cells[j.val] with suspect := min (r.cells[j.val].suspect + 1) 65535 }
              flags := { r.flags with saturated := r.flags.saturated || 65535 ≤ r.cells[j.val].suspect } })) ∧
        ((∀ j : DenomIndex, e.index = some j → (s.config.entry r.currency j).face = 0) →
          becomes (credited q1 f'
            { r with
              unrecognized := min (r.unrecognized + 1) 65535
              flags := { r.flags with saturated := r.flags.saturated || 65535 ≤ r.unrecognized } })))

/-- R102, R103, R104: a Stacked that matches no entry credits nothing and marks the pocket it names: one note more
in P0 or P1, with the pocket-full test; TAINTED on a bundle; BLOCKED on an UNBOUND pocket. One that names another
pocket than its entry's marks the pocket it names in the same way and loses its entry. With a feed, in any state, that
is a jam that the CT-4 declares, at the jam limit too, which loses the rest of the window behind that entry (what the
losses say to the transport is behind the mark in the pocket counts; the model's choices: where a Pace stands, log 10,
and that the losses speak at the jam limit, log 23). Without a feed, the one entry is lost and no jam is declared. -/
def Obligations.StackedOutOfPlaceMarksThePocket : Prop :=
  ∀ (s : State) (p : PortId) (seq : Byte) (k : Pocket), s.running = true → (s.port p).state ≠ .down →
    let q := s.port p
    let becomes (u : State) : Prop := exec (.stacked p seq (BitVec.ofNat 8 k.val)) s = .next u
    ((∀ e ∈ q.window, e.seq ≠ seq) →
      (k = 0 → becomes (s.setPort p
        ({ q with p0 := { q.p0 with fill := min (q.p0.fill + 1) 65535 } }.takesFull s.returnStop s.suspectStop))) ∧
      (k = 1 → becomes (s.setPort p
        ({ q with p1 := { q.p1 with fill := min (q.p1.fill + 1) 65535 } }.takesFull s.returnStop s.suspectStop))) ∧
      ∀ pl, placeOf p k = some pl →
        match s.binding pl with
        | .unbound => becomes (s.setBinding pl .blocked)
        | .blocked => becomes s
        | .bound b => becomes (s.setBinding pl (.bound { b with tainted := true }))) ∧
    ∀ e, e ∈ q.window → e.seq = seq → e.pocket ≠ k → (q.window.Pairwise fun x y => x.seq ≠ y.seq) →
      (∀ f, q.state = .feeding f → s.LostInRange → f.lost ≤ 65535 →
        ∃ t, becomes t ∧ JamTaken (s.misrouteAt p e k) (s.strayMarked p k) t p f) ∧
      ((∀ f, q.state ≠ .feeding f) → e.slot = none → e.pocket = 0 →
        becomes ((s.setPort p { q with
          window := q.window.filter fun x => x.seq ≠ seq
          p0 := { q.p0 with inFlight := q.p0.inFlight - 1 } }).strayMarked p k))

/-- R108 to R111, R92: a Jam message acts by the port's feed: without one it has no effect; otherwise every entry in
the window is lost, and the feed is JAMMED, or aborted at its third consecutive jam. It sends no Stop of its own: the
transport is sent the Strap Orders of the bundles that the losses complete, the Stop or Resume of a pocket-full
condition that they end, and at the limit End Refused behind them (the model's choice, log 23). A Pace stands last
(the model's choice where no rule gives the order, log 10). -/
def Obligations.JamActsByTheFeed : Prop :=
  ∀ (s : State) (p : PortId), s.running = true → s.LostInRange →
    ((∀ f, (s.port p).state ≠ .feeding f) → exec (.jam p) s = .next s) ∧
    ∀ f, (s.port p).state = .feeding f → f.lost ≤ 65535 →
      ∃ t, exec (.jam p) s = .next t ∧ JamTaken (s.jamAt p false none) s t p f

/-- R49, R74, R180, R105, R108: a discarded message on a feed that is not JAMMED, a Note Report that fails the
order test, and a flight expiry under a feed are jams that the CT-4 declares, with a Stop that carries JAM and the
stop set as the losses leave it. An expiry acts at its entry's deadline (the model's choice, log 5); where a Pace
stands is log 10, and that the losses speak before End Refused at the jam limit is the model's choice, log 23. -/
def Obligations.DeclaredJamsStopTheTransport : Prop :=
  ∀ (s : State) (p : PortId) (f : Feed), s.running = true → s.LostInRange → (s.port p).state = .feeding f →
    f.lost ≤ 65535 →
    (∀ type body lineError, lineError = true ∨ readMessage p type body = none →
      (f.state = .jammed → exec (.discardedMessage p type body lineError) s = .next s) ∧
      (f.state ≠ .jammed →
        ∃ t, exec (.discardedMessage p type body lineError) s = .next t ∧ JamTaken (s.jamAt p true none) s t p f)) ∧
    (∀ seq index fitness verdict, noteFieldsValid index fitness verdict = true → (s.port p).OutOfOrder f seq →
      ∃ t, exec (.noteReport p seq index fitness verdict) s = .next t ∧
        JamTaken (s.jamAt p true none) s t p f) ∧
    ∀ e ∈ (s.port p).window, ((s.port p).window.Pairwise fun x y => x.seq ≠ y.seq) →
      ∃ t, exec (.flightExpiry p e.seq) s = .next t ∧
        JamTaken (s.jamAt p true none) { s with now := max s.now e.deadline } t p f

/-- R49, R105, R180: a discarded message without a feed has no effect; one that is not to be discarded is taken as
the message that it spells (log 6); an expiry without a feed loses its entry alone (a clock that stood earlier moves
to its deadline, log 5), and one whose entry has left the window is no event. -/
def Obligations.DiscardsAndExpiriesWithoutAFeed : Prop :=
  ∀ (s : State) (p : PortId),
    (∀ type body c, readMessage p type body = some c → exec (.discardedMessage p type body false) s = exec c s) ∧
    ((∀ f, (s.port p).state ≠ .feeding f) →
      (∀ type body lineError, lineError = true ∨ readMessage p type body = none →
        exec (.discardedMessage p type body lineError) s = .next s) ∧
      ∀ e ∈ (s.port p).window, s.running = true → e.slot = none → e.pocket = 0 →
        ((s.port p).window.Pairwise fun x y => x.seq ≠ y.seq) →
        exec (.flightExpiry p e.seq) s = .next ({ s with now := max s.now e.deadline }.setPort p
          { s.port p with
            window := (s.port p).window.filter fun x => x.seq ≠ e.seq
            p0 := { (s.port p).p0 with inFlight := (s.port p).p0.inFlight - 1 } })) ∧
    ∀ seq, (∀ e ∈ (s.port p).window, e.seq ≠ seq) → exec (.flightExpiry p seq) s = .next s

/-- R112, R106, R92: Jam Cleared loses what the window holds, with the pocket-full test of each loss at P0 or P1, and
takes the feed out of JAMMED with its expected sequence at 0: ACTIVE with Resume, or SUSPENDED with a Stop that carries
the stop set. Otherwise it is ignored. A Pace stands last (log 10). -/
def Obligations.JamClearedRestartsTheFeed : Prop :=
  ∀ (s : State) (p : PortId), s.running = true → s.LostInRange →
    ((∀ f, (s.port p).state = .feeding f → f.state ≠ .jammed) → exec (.jamCleared p) s = .next s) ∧
    ∀ f, (s.port p).state = .feeding f → f.state = .jammed → f.lost ≤ 65535 →
      let w := (s.port p).window
      ∃ u f', exec (.jamCleared p) s = .next (u.governed s.backlog) ∧ SameButHall s u ∧
        u.port p = { s.port p with
          state := .feeding f', window := [], p0 := (u.port p).p0, p1 := (u.port p).p1, out := (u.port p).out } ∧
        f' = { f with
          state := if f'.stop = {} then .active else .suspended
          stop := f.stopAfterLosses false w ((u.port p).Full s.returnStop s.suspectStop)
          expected := 0
          lost := min (f.lost + (attributed w).length) 65535 } ∧
        StacksAfterLosses w (s.port p) (u.port p) ∧ BundlesAfterLosses none p w s u ∧
        (∀ pl, placePort pl ≠ p → u.binding pl = s.binding pl) ∧ StrapsSent s u p ∧
        (s.LossesFit p w → ListsAfter (s.completedBy none p w) s u) ∧
        SaidLast none w (s.jamAt p true none).words s u p [if f'.stop = {} then .resume else .stop f'.stop false] ∧
        (∀ x, x ≠ p → u.port x = s.port x) ∧
        ∀ i, u.record? i = (s.record? i).map (DepositRecord.afterLosses i w)

/-- R93, R113, R114, R115, R36, R127: Pocket Cleared empties P0 or P1; it frees a BLOCKED pocket, makes a STRAPPING
bundle COLLECTABLE in its place in the queue, and voids a bundle pulled unstrapped, whose records take the voiding,
with HOLD to the feeds on those that CUSTODY takes to HELD; where notes are in flight to it, the jam POCKET_PULLED is
taken first, and the pulled bundle does not complete in it. Then the waiting list is promoted. One that names no pocket
is a discarded message. A Pace stands last (log 10), and at the jam limit the losses speak before End
Refused (the model's choice, log 23). The premises are laws that other statements keep. -/
def Obligations.PocketClearedActsByTheBinding : Prop :=
  ∀ (s : State) (p : PortId) (k : Byte), s.running = true →
    let q := s.port p
    let becomes (u : State) : Prop := exec (.pocketCleared p k) s = .next u
    (q.state = .down → becomes s) ∧
    (8 ≤ k.toNat → exec (.pocketCleared p k) s = exec (.discardedMessage p 0x17 [k] false) s) ∧
    (q.state ≠ .down →
      (k.toNat = 0 → becomes (s.setPort p
        ({ q with p0 := { q.p0 with fill := 0, mark := false } }.takesFull s.returnStop s.suspectStop))) ∧
      (k.toNat = 1 → becomes (s.setPort p
        ({ q with p1 := { q.p1 with fill := 0, mark := false } }.takesFull s.returnStop s.suspectStop))) ∧
      ∀ pl, placePort pl = p → (placePocket pl).val = k.toNat →
        match s.binding pl with
        | .unbound => becomes s
        | .blocked => becomes (s.setBinding pl .unbound)
        | .bound b =>
          (b.state = .strapping →
            becomes { s.setBinding pl .unbound with
              queue := s.queue.map fun e =>
                if e = .inPocket pl then .lifted { b with state := .collectable } else e }) ∧
          (b.state = .opened ∨ b.state = .filled ∨ b.state = .closing ∨ b.state = .completeWaiting →
            b.inFlight = 0 → s.waiting.Nodup → becomes ((s.voided pl b).promoted.governed s.backlog)) ∧
          (b.state = .opened ∨ b.state = .filled ∨ b.state = .closing →
            b.inFlight ≠ 0 → s.ListsLaw → s.LostInRange →
            ∀ f, q.state = .feeding f → f.lost ≤ 65535 →
              ∃ u, JamEffect (s.jamAt p true (some pl)) s u p f ∧
                becomes ((match u.binding pl with
                  | .bound b' => u.voided pl b'
                  | .unbound | .blocked => u).promoted.governed s.backlog)))

/-! ### Power and Start-up (chapter 8), and the idle timer (R44) -/

/-- R44, R36: an idle expiry holds the record with IDLE at the time its timer reaches the limit (the model's choice,
log 5: a clock that stood earlier moves there); a timer that does
not run, or a limit of 0, has none. -/
def Obligations.IdleExpiryHoldsTheRecord : Prop :=
  ∀ (s : State) (i : Slot), s.running = true →
    ((∀ r start, s.record? i = some r → r.idleSince = some start → s.idleLimit = 0) →
      exec (.idleExpiry i) s = .next s) ∧
    ∀ r start, s.record? i = some r → r.idleSince = some start → s.idleLimit ≠ 0 →
      exec (.idleExpiry i) s = .next
        { s.setRecord i (some (r.afterHold fun h => { h with idle := true })) with
          now := max s.now (start + s.idleLimit * 60000)
          ports := Vector.ofFn fun p : PortId =>
            if r.state.Holdable && r.feeding[p.val] then (s.port p).takesHold true else s.port p }

/-- R154, R155, R60: an assertion of the power warning sets its cause flag, puts POWER into the stop set of every
feed and starts the hold-up timer with the time in force; a deassertion while the timer runs stops it and takes
POWER out again. A level that does not change is no event (the model's reading, log 15). -/
def Obligations.PowerWarningStopsAndResumesFeeds : Prop :=
  ∀ s : State, s.running = true →
    (s.warning = false → exec .powerWarningAsserted s = .next { s with
      warning := true
      causes := { s.causes with powerWarning := true }
      ports := s.ports.map fun q => q.takesPower true
      holdUp := some { start := s.now, duration := s.holdUpTime } }) ∧
    (s.warning = true → exec .powerWarningAsserted s = .next s) ∧
    (s.warning = true → s.holdUp ≠ none → exec .powerWarningDeasserted s = .next { s with
      warning := false
      ports := s.ports.map fun q => q.takesPower false
      holdUp := none }) ∧
    (s.warning = true → s.holdUp = none → exec .powerWarningDeasserted s = .next { s with warning := false }) ∧
    (s.warning = false → exec .powerWarningDeasserted s = .next s)

/-- R156: the hold-up expiry loses every window and aborts every feed with POWER: no feed is left, every port that
had one is READY, and the record of each is held. Every record is exactly `State.afterHoldUp` of what it was: the losses
of the four windows, the aborted feeds' transports out of its feeding set, and the hold with POWER. The other ports keep
their state and their counts. A port that is not DOWN is sent the Strap Orders of the bundles that the losses complete,
then a Pace where it changed, then End Refused where it had a feed, and nothing else: no Stop and no Resume. The bundles
that complete enter the lists port by port, where the counts stand as the rules keep them. Without a running timer there
is no expiry. The clock then stands at the expiry at least (the model's choice, log 5). -/
def Obligations.HoldUpExpiryAbortsEveryFeed : Prop :=
  ∀ s : State, s.running = true → s.LostInRange →
    (s.holdUp = none → exec .holdUpExpiry s = .next s) ∧
    let l := (List.finRange 4).flatMap fun p => s.completedBy none p (s.port p).window
    ∀ h, s.holdUp = some h → ∃ t, exec .holdUpExpiry s = .next t ∧
      SameButHallGoverned { s with now := max s.now (h.start + h.duration), holdUp := none } t ∧
      ((∀ p, s.LossesFit p (s.port p).window) → ListsAfter l s t) ∧
      (∀ p,
        t.port p = { s.port p with
          state := match (s.port p).state with
            | .feeding _ => .ready
            | st => st
          window := []
          p0 := (t.port p).p0, p1 := (t.port p).p1, out := (t.port p).out } ∧
        StacksAfterLosses (s.port p).window (s.port p) (t.port p) ∧
        BundlesAfterLosses none p (s.port p).window s t ∧
        ((s.port p).isDown = true → (t.port p).out = (s.port p).out) ∧
        ((s.port p).isDown = false → ∃ straps,
          (t.port p).out = (s.port p).out ++ straps ++ (if t.pace = s.pace then [] else [.pace t.pace]) ++
            (match (s.port p).state with
            | .feeding _ => [.endRefused .aborted]
            | .down | .ready | .locked _ => []) ∧
          (∀ m ∈ straps, ∃ k n, m = .strapOrder k n) ∧
          ((∀ x, s.LossesFit x (s.port x).window) → straps = s.strapsFor p l)) ∧
        ∀ f r, (s.port p).state = .feeding f → s.record? f.slot = some r →
          (t.port p).out.getLast? = some (.endRefused .aborted) ∧
          ∃ r', t.record? f.slot = some r' ∧ r'.feeding[p.val] = false ∧
            (r.state ≠ .sealed → r'.state = .held ∧ r'.holds.power = true)) ∧
      ∀ i, t.record? i = (s.record? i).map (s.afterHoldUp i)

/-- R158, R159: the reset line and a power failure keep every stored field: the configuration and its check word,
the records but for the volatile pending count and idle timer, the bound bundles, the two lists, the next number
and the cause flags. The part then runs no more, no port is up, and Attention is deasserted; the volatile values of a
part that does not run are the model's choice (log 8), and messages not yet sent are discarded (log 7). Until start-up
a part that does not run takes no event, and only the level of the power-warning input follows it (with the reset line
R159; without supply, log 8). -/
def Obligations.StoreSurvivesResetAndPowerFailure : Prop :=
  (∀ (s : State) (c : Instr), c = .resetLineAsserted ∨ c = .powerFailure →
    ∃ t, exec c s = .next t ∧ t.running = false ∧ t.attention = false ∧
      t.powered = (if c = .powerFailure then false else s.powered) ∧
      t.resetLine = (if c = .resetLineAsserted then true else s.resetLine) ∧
      t.config = s.config ∧ t.checkWord = s.checkWord ∧ t.waiting = s.waiting ∧ t.queue = s.queue ∧
      t.nextNumber = s.nextNumber ∧ t.causes = s.causes ∧ t.warning = s.warning ∧ t.now = s.now ∧
      (∀ i, t.record? i = (s.record? i).map fun r => { r with pending := 0, idleSince := none }) ∧
      (∀ pl b, s.binding pl = .bound b → t.binding pl = .bound b) ∧
      (∀ pl, (∀ b, s.binding pl ≠ .bound b) → t.binding pl = .unbound) ∧
      (∀ p, t.port p = {}) ∧ t.link = .idle ∧ t.holdUp = none) ∧
  ∀ (s : State) (c : Instr), s.running = false →
    (∀ cause, c ≠ .startUp cause) → c ≠ .resetLineAsserted → c ≠ .powerFailure →
      exec c s = .next (if c = .powerWarningAsserted then { s with warning := true }
        else if c = .powerWarningDeasserted then { s with warning := false }
        else s)

/-- R160, R13, R48, R139, R134, R158: start-up sets its cause, decides CONFIG_FAULT from the store, recovers the
records and the bundles, starts the governor from the backlog, and leaves every port DOWN and the link IDLE; an
asserted power warning is then taken as an assertion. The cause that each case sets on a part that still runs is
the model's choice (log 16), and messages not yet sent are discarded (log 7). -/
def Obligations.StartUpRecoversThePart : Prop :=
  ∀ (s : State) (cause : StartCause),
    ∃ t, exec (.startUp cause) s = .next t ∧ t.running = true ∧ t.now = s.now ∧ t.warning = s.warning ∧
      t.causes =
        { powerUp := s.causes.powerUp || (!s.powered || cause = .powerUp)
          resetLine := s.causes.resetLine || (s.powered && cause = .resetRelease)
          powerWarning := s.causes.powerWarning || s.warning } ∧
      t.config = s.config ∧ t.checkWord = s.checkWord ∧
      (t.configFault = false ↔ s.checkWord = crc s.config.image ∧ s.config.Legal) ∧
      (∀ i, s.record? i = none → t.record? i = none) ∧
      (∀ i r, s.record? i = some r →
        let fed : Prop := ∃ p : PortId, r.feeding[p.val] = true
        let rest := { r with feeding := Vector.replicate 4 false, pending := 0, idleSince := none }
        (fed → t.record? i = some (rest.afterHold fun h => { h with power := true })) ∧
        (¬ fed → r.state = .counting → t.record? i = some { rest with idleSince := some s.now }) ∧
        (¬ fed → r.state ≠ .counting → t.record? i = some rest)) ∧
      (∀ pl, (∀ b, s.binding pl ≠ .bound b) → t.binding pl = .unbound) ∧
      (∀ pl b, s.binding pl = .bound b →
        let waits (prior : PriorState) : Prop :=
          t.binding pl = .bound { b.keptAtStartUp with state := .unconfirmed prior }
        match b.state with
        | .opened => (b.stacked = 0 → t.binding pl = .unbound) ∧ (b.stacked ≠ 0 → waits .opened)
        | .filled => (b.stacked = 0 → t.binding pl = .unbound) ∧ (b.stacked ≠ 0 → waits .filled)
        | .closing => (b.stacked = 0 → t.binding pl = .unbound) ∧ (b.stacked ≠ 0 → waits .closing)
        | .completeWaiting => waits .completeWaiting
        | .strapping => waits .strapping
        | .unconfirmed prior => waits prior
        | .collectable => True) ∧
      t.waiting = s.waiting ∧ t.queue = s.queue ∧ t.nextNumber = s.nextNumber ∧
      t.effective = min 16 (s.queue.length + s.waiting.length) ∧ t.pace = t.paceFor t.effective ∧
      (∀ p, t.port p = {}) ∧ t.link = .idle ∧
      t.holdUp = if s.warning then some { start := s.now, duration := t.holdUpTime } else none

/-! ### The laws of the whole part -/

/-- The state right after reset, which is the model's choice (log 1: a factory-new part after its first start-up),
meets every law: the accounting law with the laws it rests on, and that of the governor. So does every part that comes
up by start-up (R160) with empty tables and a bundle number of 1 to 0xFFFFFFFF, whatever its configuration. -/
def Obligations.ResetMeetsTheLaws : Prop :=
  (State.reset.Sound ∧ State.reset.GovernorLaw) ∧
  ∀ (s t : State) (cause : StartCause), s.NothingHeld → s.nextNumber ≠ 0 → exec (.startUp cause) s = .next t →
    t.Sound ∧ t.GovernorLaw

/-- R26, R28, R117 to R119, R20, R27, R82: every step keeps the central accounting law, together with the laws that it
rests on: those of the bundles and their contributions, of the pending and in-flight counts, of the entries, of the
feeds and the feeding sets, of the cells, of the records, the ports, the stop sets, the lists and the configuration. Whether a step is
a command, whatever its operands, or the millisecond of an empty queue. -/
def Obligations.AccountingLawIsKept : Prop :=
  ∀ s t : State, s.Sound → step s = .next t → t.Sound
end

