-- ==== Sys2Proof/Laws/State.lean ====
section
/-! SUPPORT. The small lemmas of the state: what each named update leaves, field by field, and what each
accessor reads after it. -/

namespace Sys2Proof.Machine

/-! ### Updates of one field: every other field is as it was -/

@[simp] theorem State.setPort_pending (s : State) (p : PortId) (q : Port) : (s.setPort p q).pending = s.pending := rfl
@[simp] theorem State.setPort_now (s : State) (p : PortId) (q : Port) : (s.setPort p q).now = s.now := rfl
@[simp] theorem State.setPort_shifted (s : State) (p : PortId) (q : Port) : (s.setPort p q).shifted = s.shifted := rfl
@[simp] theorem State.setPort_powered (s : State) (p : PortId) (q : Port) : (s.setPort p q).powered = s.powered := rfl
@[simp] theorem State.setPort_resetLine (s : State) (p : PortId) (q : Port) : (s.setPort p q).resetLine = s.resetLine := rfl
@[simp] theorem State.setPort_warning (s : State) (p : PortId) (q : Port) : (s.setPort p q).warning = s.warning := rfl
@[simp] theorem State.setPort_config (s : State) (p : PortId) (q : Port) : (s.setPort p q).config = s.config := rfl
@[simp] theorem State.setPort_checkWord (s : State) (p : PortId) (q : Port) : (s.setPort p q).checkWord = s.checkWord := rfl
@[simp] theorem State.setPort_configFault (s : State) (p : PortId) (q : Port) : (s.setPort p q).configFault = s.configFault := rfl
@[simp] theorem State.setPort_records (s : State) (p : PortId) (q : Port) : (s.setPort p q).records = s.records := rfl
@[simp] theorem State.setPort_bindings (s : State) (p : PortId) (q : Port) : (s.setPort p q).bindings = s.bindings := rfl
@[simp] theorem State.setPort_waiting (s : State) (p : PortId) (q : Port) : (s.setPort p q).waiting = s.waiting := rfl
@[simp] theorem State.setPort_queue (s : State) (p : PortId) (q : Port) : (s.setPort p q).queue = s.queue := rfl
@[simp] theorem State.setPort_nextNumber (s : State) (p : PortId) (q : Port) : (s.setPort p q).nextNumber = s.nextNumber := rfl
@[simp] theorem State.setPort_effective (s : State) (p : PortId) (q : Port) : (s.setPort p q).effective = s.effective := rfl
@[simp] theorem State.setPort_pace (s : State) (p : PortId) (q : Port) : (s.setPort p q).pace = s.pace := rfl
@[simp] theorem State.setPort_causes (s : State) (p : PortId) (q : Port) : (s.setPort p q).causes = s.causes := rfl
@[simp] theorem State.setPort_holdUp (s : State) (p : PortId) (q : Port) : (s.setPort p q).holdUp = s.holdUp := rfl
@[simp] theorem State.setPort_link (s : State) (p : PortId) (q : Port) : (s.setPort p q).link = s.link := rfl

@[simp] theorem State.modPort_pending (s : State) (p : PortId) (g : Port → Port) : (s.modPort p g).pending = s.pending := rfl
@[simp] theorem State.modPort_now (s : State) (p : PortId) (g : Port → Port) : (s.modPort p g).now = s.now := rfl
@[simp] theorem State.modPort_shifted (s : State) (p : PortId) (g : Port → Port) : (s.modPort p g).shifted = s.shifted := rfl
@[simp] theorem State.modPort_powered (s : State) (p : PortId) (g : Port → Port) : (s.modPort p g).powered = s.powered := rfl
@[simp] theorem State.modPort_resetLine (s : State) (p : PortId) (g : Port → Port) : (s.modPort p g).resetLine = s.resetLine := rfl
@[simp] theorem State.modPort_warning (s : State) (p : PortId) (g : Port → Port) : (s.modPort p g).warning = s.warning := rfl
@[simp] theorem State.modPort_config (s : State) (p : PortId) (g : Port → Port) : (s.modPort p g).config = s.config := rfl
@[simp] theorem State.modPort_checkWord (s : State) (p : PortId) (g : Port → Port) : (s.modPort p g).checkWord = s.checkWord := rfl
@[simp] theorem State.modPort_configFault (s : State) (p : PortId) (g : Port → Port) : (s.modPort p g).configFault = s.configFault := rfl
@[simp] theorem State.modPort_records (s : State) (p : PortId) (g : Port → Port) : (s.modPort p g).records = s.records := rfl
@[simp] theorem State.modPort_bindings (s : State) (p : PortId) (g : Port → Port) : (s.modPort p g).bindings = s.bindings := rfl
@[simp] theorem State.modPort_waiting (s : State) (p : PortId) (g : Port → Port) : (s.modPort p g).waiting = s.waiting := rfl
@[simp] theorem State.modPort_queue (s : State) (p : PortId) (g : Port → Port) : (s.modPort p g).queue = s.queue := rfl
@[simp] theorem State.modPort_nextNumber (s : State) (p : PortId) (g : Port → Port) : (s.modPort p g).nextNumber = s.nextNumber := rfl
@[simp] theorem State.modPort_effective (s : State) (p : PortId) (g : Port → Port) : (s.modPort p g).effective = s.effective := rfl
@[simp] theorem State.modPort_pace (s : State) (p : PortId) (g : Port → Port) : (s.modPort p g).pace = s.pace := rfl
@[simp] theorem State.modPort_causes (s : State) (p : PortId) (g : Port → Port) : (s.modPort p g).causes = s.causes := rfl
@[simp] theorem State.modPort_holdUp (s : State) (p : PortId) (g : Port → Port) : (s.modPort p g).holdUp = s.holdUp := rfl
@[simp] theorem State.modPort_link (s : State) (p : PortId) (g : Port → Port) : (s.modPort p g).link = s.link := rfl

@[simp] theorem State.setFeed_pending (s : State) (p : PortId) (f : Feed) : (s.setFeed p f).pending = s.pending := rfl
@[simp] theorem State.setFeed_now (s : State) (p : PortId) (f : Feed) : (s.setFeed p f).now = s.now := rfl
@[simp] theorem State.setFeed_shifted (s : State) (p : PortId) (f : Feed) : (s.setFeed p f).shifted = s.shifted := rfl
@[simp] theorem State.setFeed_powered (s : State) (p : PortId) (f : Feed) : (s.setFeed p f).powered = s.powered := rfl
@[simp] theorem State.setFeed_resetLine (s : State) (p : PortId) (f : Feed) : (s.setFeed p f).resetLine = s.resetLine := rfl
@[simp] theorem State.setFeed_warning (s : State) (p : PortId) (f : Feed) : (s.setFeed p f).warning = s.warning := rfl
@[simp] theorem State.setFeed_config (s : State) (p : PortId) (f : Feed) : (s.setFeed p f).config = s.config := rfl
@[simp] theorem State.setFeed_checkWord (s : State) (p : PortId) (f : Feed) : (s.setFeed p f).checkWord = s.checkWord := rfl
@[simp] theorem State.setFeed_configFault (s : State) (p : PortId) (f : Feed) : (s.setFeed p f).configFault = s.configFault := rfl
@[simp] theorem State.setFeed_records (s : State) (p : PortId) (f : Feed) : (s.setFeed p f).records = s.records := rfl
@[simp] theorem State.setFeed_bindings (s : State) (p : PortId) (f : Feed) : (s.setFeed p f).bindings = s.bindings := rfl
@[simp] theorem State.setFeed_waiting (s : State) (p : PortId) (f : Feed) : (s.setFeed p f).waiting = s.waiting := rfl
@[simp] theorem State.setFeed_queue (s : State) (p : PortId) (f : Feed) : (s.setFeed p f).queue = s.queue := rfl
@[simp] theorem State.setFeed_nextNumber (s : State) (p : PortId) (f : Feed) : (s.setFeed p f).nextNumber = s.nextNumber := rfl
@[simp] theorem State.setFeed_effective (s : State) (p : PortId) (f : Feed) : (s.setFeed p f).effective = s.effective := rfl
@[simp] theorem State.setFeed_pace (s : State) (p : PortId) (f : Feed) : (s.setFeed p f).pace = s.pace := rfl
@[simp] theorem State.setFeed_causes (s : State) (p : PortId) (f : Feed) : (s.setFeed p f).causes = s.causes := rfl
@[simp] theorem State.setFeed_holdUp (s : State) (p : PortId) (f : Feed) : (s.setFeed p f).holdUp = s.holdUp := rfl
@[simp] theorem State.setFeed_link (s : State) (p : PortId) (f : Feed) : (s.setFeed p f).link = s.link := rfl

@[simp] theorem State.setRecord_pending (s : State) (i : Slot) (r : Option DepositRecord) : (s.setRecord i r).pending = s.pending := rfl
@[simp] theorem State.setRecord_now (s : State) (i : Slot) (r : Option DepositRecord) : (s.setRecord i r).now = s.now := rfl
@[simp] theorem State.setRecord_shifted (s : State) (i : Slot) (r : Option DepositRecord) : (s.setRecord i r).shifted = s.shifted := rfl
@[simp] theorem State.setRecord_powered (s : State) (i : Slot) (r : Option DepositRecord) : (s.setRecord i r).powered = s.powered := rfl
@[simp] theorem State.setRecord_resetLine (s : State) (i : Slot) (r : Option DepositRecord) : (s.setRecord i r).resetLine = s.resetLine := rfl
@[simp] theorem State.setRecord_warning (s : State) (i : Slot) (r : Option DepositRecord) : (s.setRecord i r).warning = s.warning := rfl
@[simp] theorem State.setRecord_config (s : State) (i : Slot) (r : Option DepositRecord) : (s.setRecord i r).config = s.config := rfl
@[simp] theorem State.setRecord_checkWord (s : State) (i : Slot) (r : Option DepositRecord) : (s.setRecord i r).checkWord = s.checkWord := rfl
@[simp] theorem State.setRecord_configFault (s : State) (i : Slot) (r : Option DepositRecord) : (s.setRecord i r).configFault = s.configFault := rfl
@[simp] theorem State.setRecord_ports (s : State) (i : Slot) (r : Option DepositRecord) : (s.setRecord i r).ports = s.ports := rfl
@[simp] theorem State.setRecord_bindings (s : State) (i : Slot) (r : Option DepositRecord) : (s.setRecord i r).bindings = s.bindings := rfl
@[simp] theorem State.setRecord_waiting (s : State) (i : Slot) (r : Option DepositRecord) : (s.setRecord i r).waiting = s.waiting := rfl
@[simp] theorem State.setRecord_queue (s : State) (i : Slot) (r : Option DepositRecord) : (s.setRecord i r).queue = s.queue := rfl
@[simp] theorem State.setRecord_nextNumber (s : State) (i : Slot) (r : Option DepositRecord) : (s.setRecord i r).nextNumber = s.nextNumber := rfl
@[simp] theorem State.setRecord_effective (s : State) (i : Slot) (r : Option DepositRecord) : (s.setRecord i r).effective = s.effective := rfl
@[simp] theorem State.setRecord_pace (s : State) (i : Slot) (r : Option DepositRecord) : (s.setRecord i r).pace = s.pace := rfl
@[simp] theorem State.setRecord_causes (s : State) (i : Slot) (r : Option DepositRecord) : (s.setRecord i r).causes = s.causes := rfl
@[simp] theorem State.setRecord_holdUp (s : State) (i : Slot) (r : Option DepositRecord) : (s.setRecord i r).holdUp = s.holdUp := rfl
@[simp] theorem State.setRecord_link (s : State) (i : Slot) (r : Option DepositRecord) : (s.setRecord i r).link = s.link := rfl

@[simp] theorem State.setBinding_pending (s : State) (pl : Place) (b : Binding) : (s.setBinding pl b).pending = s.pending := rfl
@[simp] theorem State.setBinding_now (s : State) (pl : Place) (b : Binding) : (s.setBinding pl b).now = s.now := rfl
@[simp] theorem State.setBinding_shifted (s : State) (pl : Place) (b : Binding) : (s.setBinding pl b).shifted = s.shifted := rfl
@[simp] theorem State.setBinding_powered (s : State) (pl : Place) (b : Binding) : (s.setBinding pl b).powered = s.powered := rfl
@[simp] theorem State.setBinding_resetLine (s : State) (pl : Place) (b : Binding) : (s.setBinding pl b).resetLine = s.resetLine := rfl
@[simp] theorem State.setBinding_warning (s : State) (pl : Place) (b : Binding) : (s.setBinding pl b).warning = s.warning := rfl
@[simp] theorem State.setBinding_config (s : State) (pl : Place) (b : Binding) : (s.setBinding pl b).config = s.config := rfl
@[simp] theorem State.setBinding_checkWord (s : State) (pl : Place) (b : Binding) : (s.setBinding pl b).checkWord = s.checkWord := rfl
@[simp] theorem State.setBinding_configFault (s : State) (pl : Place) (b : Binding) : (s.setBinding pl b).configFault = s.configFault := rfl
@[simp] theorem State.setBinding_records (s : State) (pl : Place) (b : Binding) : (s.setBinding pl b).records = s.records := rfl
@[simp] theorem State.setBinding_ports (s : State) (pl : Place) (b : Binding) : (s.setBinding pl b).ports = s.ports := rfl
@[simp] theorem State.setBinding_waiting (s : State) (pl : Place) (b : Binding) : (s.setBinding pl b).waiting = s.waiting := rfl
@[simp] theorem State.setBinding_queue (s : State) (pl : Place) (b : Binding) : (s.setBinding pl b).queue = s.queue := rfl
@[simp] theorem State.setBinding_nextNumber (s : State) (pl : Place) (b : Binding) : (s.setBinding pl b).nextNumber = s.nextNumber := rfl
@[simp] theorem State.setBinding_effective (s : State) (pl : Place) (b : Binding) : (s.setBinding pl b).effective = s.effective := rfl
@[simp] theorem State.setBinding_pace (s : State) (pl : Place) (b : Binding) : (s.setBinding pl b).pace = s.pace := rfl
@[simp] theorem State.setBinding_causes (s : State) (pl : Place) (b : Binding) : (s.setBinding pl b).causes = s.causes := rfl
@[simp] theorem State.setBinding_holdUp (s : State) (pl : Place) (b : Binding) : (s.setBinding pl b).holdUp = s.holdUp := rfl
@[simp] theorem State.setBinding_link (s : State) (pl : Place) (b : Binding) : (s.setBinding pl b).link = s.link := rfl

@[simp] theorem State.clockAtLeast_pending (s : State) (n : Nat) : (s.clockAtLeast n).pending = s.pending := rfl
@[simp] theorem State.clockAtLeast_shifted (s : State) (n : Nat) : (s.clockAtLeast n).shifted = s.shifted := rfl
@[simp] theorem State.clockAtLeast_powered (s : State) (n : Nat) : (s.clockAtLeast n).powered = s.powered := rfl
@[simp] theorem State.clockAtLeast_resetLine (s : State) (n : Nat) : (s.clockAtLeast n).resetLine = s.resetLine := rfl
@[simp] theorem State.clockAtLeast_warning (s : State) (n : Nat) : (s.clockAtLeast n).warning = s.warning := rfl
@[simp] theorem State.clockAtLeast_config (s : State) (n : Nat) : (s.clockAtLeast n).config = s.config := rfl
@[simp] theorem State.clockAtLeast_checkWord (s : State) (n : Nat) : (s.clockAtLeast n).checkWord = s.checkWord := rfl
@[simp] theorem State.clockAtLeast_configFault (s : State) (n : Nat) : (s.clockAtLeast n).configFault = s.configFault := rfl
@[simp] theorem State.clockAtLeast_records (s : State) (n : Nat) : (s.clockAtLeast n).records = s.records := rfl
@[simp] theorem State.clockAtLeast_ports (s : State) (n : Nat) : (s.clockAtLeast n).ports = s.ports := rfl
@[simp] theorem State.clockAtLeast_bindings (s : State) (n : Nat) : (s.clockAtLeast n).bindings = s.bindings := rfl
@[simp] theorem State.clockAtLeast_waiting (s : State) (n : Nat) : (s.clockAtLeast n).waiting = s.waiting := rfl
@[simp] theorem State.clockAtLeast_queue (s : State) (n : Nat) : (s.clockAtLeast n).queue = s.queue := rfl
@[simp] theorem State.clockAtLeast_nextNumber (s : State) (n : Nat) : (s.clockAtLeast n).nextNumber = s.nextNumber := rfl
@[simp] theorem State.clockAtLeast_effective (s : State) (n : Nat) : (s.clockAtLeast n).effective = s.effective := rfl
@[simp] theorem State.clockAtLeast_pace (s : State) (n : Nat) : (s.clockAtLeast n).pace = s.pace := rfl
@[simp] theorem State.clockAtLeast_causes (s : State) (n : Nat) : (s.clockAtLeast n).causes = s.causes := rfl
@[simp] theorem State.clockAtLeast_holdUp (s : State) (n : Nat) : (s.clockAtLeast n).holdUp = s.holdUp := rfl
@[simp] theorem State.clockAtLeast_link (s : State) (n : Nat) : (s.clockAtLeast n).link = s.link := rfl

@[simp] theorem State.storeCheckWord_pending (s : State) : (s.storeCheckWord).pending = s.pending := rfl
@[simp] theorem State.storeCheckWord_now (s : State) : (s.storeCheckWord).now = s.now := rfl
@[simp] theorem State.storeCheckWord_shifted (s : State) : (s.storeCheckWord).shifted = s.shifted := rfl
@[simp] theorem State.storeCheckWord_powered (s : State) : (s.storeCheckWord).powered = s.powered := rfl
@[simp] theorem State.storeCheckWord_resetLine (s : State) : (s.storeCheckWord).resetLine = s.resetLine := rfl
@[simp] theorem State.storeCheckWord_warning (s : State) : (s.storeCheckWord).warning = s.warning := rfl
@[simp] theorem State.storeCheckWord_config (s : State) : (s.storeCheckWord).config = s.config := rfl
@[simp] theorem State.storeCheckWord_configFault (s : State) : (s.storeCheckWord).configFault = s.configFault := rfl
@[simp] theorem State.storeCheckWord_records (s : State) : (s.storeCheckWord).records = s.records := rfl
@[simp] theorem State.storeCheckWord_ports (s : State) : (s.storeCheckWord).ports = s.ports := rfl
@[simp] theorem State.storeCheckWord_bindings (s : State) : (s.storeCheckWord).bindings = s.bindings := rfl
@[simp] theorem State.storeCheckWord_waiting (s : State) : (s.storeCheckWord).waiting = s.waiting := rfl
@[simp] theorem State.storeCheckWord_queue (s : State) : (s.storeCheckWord).queue = s.queue := rfl
@[simp] theorem State.storeCheckWord_nextNumber (s : State) : (s.storeCheckWord).nextNumber = s.nextNumber := rfl
@[simp] theorem State.storeCheckWord_effective (s : State) : (s.storeCheckWord).effective = s.effective := rfl
@[simp] theorem State.storeCheckWord_pace (s : State) : (s.storeCheckWord).pace = s.pace := rfl
@[simp] theorem State.storeCheckWord_causes (s : State) : (s.storeCheckWord).causes = s.causes := rfl
@[simp] theorem State.storeCheckWord_holdUp (s : State) : (s.storeCheckWord).holdUp = s.holdUp := rfl
@[simp] theorem State.storeCheckWord_link (s : State) : (s.storeCheckWord).link = s.link := rfl

/-! ### Updates that depend on what stands in the port, slot or pocket -/

@[simp] theorem State.modFeed_pending (s : State) (p : PortId) (g : Feed → Feed) : (s.modFeed p g).pending = s.pending := by
  unfold State.modFeed; split <;> rfl
@[simp] theorem State.modFeed_now (s : State) (p : PortId) (g : Feed → Feed) : (s.modFeed p g).now = s.now := by
  unfold State.modFeed; split <;> rfl
@[simp] theorem State.modFeed_shifted (s : State) (p : PortId) (g : Feed → Feed) : (s.modFeed p g).shifted = s.shifted := by
  unfold State.modFeed; split <;> rfl
@[simp] theorem State.modFeed_powered (s : State) (p : PortId) (g : Feed → Feed) : (s.modFeed p g).powered = s.powered := by
  unfold State.modFeed; split <;> rfl
@[simp] theorem State.modFeed_resetLine (s : State) (p : PortId) (g : Feed → Feed) : (s.modFeed p g).resetLine = s.resetLine := by
  unfold State.modFeed; split <;> rfl
@[simp] theorem State.modFeed_warning (s : State) (p : PortId) (g : Feed → Feed) : (s.modFeed p g).warning = s.warning := by
  unfold State.modFeed; split <;> rfl
@[simp] theorem State.modFeed_config (s : State) (p : PortId) (g : Feed → Feed) : (s.modFeed p g).config = s.config := by
  unfold State.modFeed; split <;> rfl
@[simp] theorem State.modFeed_checkWord (s : State) (p : PortId) (g : Feed → Feed) : (s.modFeed p g).checkWord = s.checkWord := by
  unfold State.modFeed; split <;> rfl
@[simp] theorem State.modFeed_configFault (s : State) (p : PortId) (g : Feed → Feed) : (s.modFeed p g).configFault = s.configFault := by
  unfold State.modFeed; split <;> rfl
@[simp] theorem State.modFeed_records (s : State) (p : PortId) (g : Feed → Feed) : (s.modFeed p g).records = s.records := by
  unfold State.modFeed; split <;> rfl
@[simp] theorem State.modFeed_bindings (s : State) (p : PortId) (g : Feed → Feed) : (s.modFeed p g).bindings = s.bindings := by
  unfold State.modFeed; split <;> rfl
@[simp] theorem State.modFeed_waiting (s : State) (p : PortId) (g : Feed → Feed) : (s.modFeed p g).waiting = s.waiting := by
  unfold State.modFeed; split <;> rfl
@[simp] theorem State.modFeed_queue (s : State) (p : PortId) (g : Feed → Feed) : (s.modFeed p g).queue = s.queue := by
  unfold State.modFeed; split <;> rfl
@[simp] theorem State.modFeed_nextNumber (s : State) (p : PortId) (g : Feed → Feed) : (s.modFeed p g).nextNumber = s.nextNumber := by
  unfold State.modFeed; split <;> rfl
@[simp] theorem State.modFeed_effective (s : State) (p : PortId) (g : Feed → Feed) : (s.modFeed p g).effective = s.effective := by
  unfold State.modFeed; split <;> rfl
@[simp] theorem State.modFeed_pace (s : State) (p : PortId) (g : Feed → Feed) : (s.modFeed p g).pace = s.pace := by
  unfold State.modFeed; split <;> rfl
@[simp] theorem State.modFeed_causes (s : State) (p : PortId) (g : Feed → Feed) : (s.modFeed p g).causes = s.causes := by
  unfold State.modFeed; split <;> rfl
@[simp] theorem State.modFeed_holdUp (s : State) (p : PortId) (g : Feed → Feed) : (s.modFeed p g).holdUp = s.holdUp := by
  unfold State.modFeed; split <;> rfl
@[simp] theorem State.modFeed_link (s : State) (p : PortId) (g : Feed → Feed) : (s.modFeed p g).link = s.link := by
  unfold State.modFeed; split <;> rfl

@[simp] theorem State.modRecord_pending (s : State) (i : Slot) (g : DepositRecord → DepositRecord) : (s.modRecord i g).pending = s.pending := by
  unfold State.modRecord; split <;> rfl
@[simp] theorem State.modRecord_now (s : State) (i : Slot) (g : DepositRecord → DepositRecord) : (s.modRecord i g).now = s.now := by
  unfold State.modRecord; split <;> rfl
@[simp] theorem State.modRecord_shifted (s : State) (i : Slot) (g : DepositRecord → DepositRecord) : (s.modRecord i g).shifted = s.shifted := by
  unfold State.modRecord; split <;> rfl
@[simp] theorem State.modRecord_powered (s : State) (i : Slot) (g : DepositRecord → DepositRecord) : (s.modRecord i g).powered = s.powered := by
  unfold State.modRecord; split <;> rfl
@[simp] theorem State.modRecord_resetLine (s : State) (i : Slot) (g : DepositRecord → DepositRecord) : (s.modRecord i g).resetLine = s.resetLine := by
  unfold State.modRecord; split <;> rfl
@[simp] theorem State.modRecord_warning (s : State) (i : Slot) (g : DepositRecord → DepositRecord) : (s.modRecord i g).warning = s.warning := by
  unfold State.modRecord; split <;> rfl
@[simp] theorem State.modRecord_config (s : State) (i : Slot) (g : DepositRecord → DepositRecord) : (s.modRecord i g).config = s.config := by
  unfold State.modRecord; split <;> rfl
@[simp] theorem State.modRecord_checkWord (s : State) (i : Slot) (g : DepositRecord → DepositRecord) : (s.modRecord i g).checkWord = s.checkWord := by
  unfold State.modRecord; split <;> rfl
@[simp] theorem State.modRecord_configFault (s : State) (i : Slot) (g : DepositRecord → DepositRecord) : (s.modRecord i g).configFault = s.configFault := by
  unfold State.modRecord; split <;> rfl
@[simp] theorem State.modRecord_ports (s : State) (i : Slot) (g : DepositRecord → DepositRecord) : (s.modRecord i g).ports = s.ports := by
  unfold State.modRecord; split <;> rfl
@[simp] theorem State.modRecord_bindings (s : State) (i : Slot) (g : DepositRecord → DepositRecord) : (s.modRecord i g).bindings = s.bindings := by
  unfold State.modRecord; split <;> rfl
@[simp] theorem State.modRecord_waiting (s : State) (i : Slot) (g : DepositRecord → DepositRecord) : (s.modRecord i g).waiting = s.waiting := by
  unfold State.modRecord; split <;> rfl
@[simp] theorem State.modRecord_queue (s : State) (i : Slot) (g : DepositRecord → DepositRecord) : (s.modRecord i g).queue = s.queue := by
  unfold State.modRecord; split <;> rfl
@[simp] theorem State.modRecord_nextNumber (s : State) (i : Slot) (g : DepositRecord → DepositRecord) : (s.modRecord i g).nextNumber = s.nextNumber := by
  unfold State.modRecord; split <;> rfl
@[simp] theorem State.modRecord_effective (s : State) (i : Slot) (g : DepositRecord → DepositRecord) : (s.modRecord i g).effective = s.effective := by
  unfold State.modRecord; split <;> rfl
@[simp] theorem State.modRecord_pace (s : State) (i : Slot) (g : DepositRecord → DepositRecord) : (s.modRecord i g).pace = s.pace := by
  unfold State.modRecord; split <;> rfl
@[simp] theorem State.modRecord_causes (s : State) (i : Slot) (g : DepositRecord → DepositRecord) : (s.modRecord i g).causes = s.causes := by
  unfold State.modRecord; split <;> rfl
@[simp] theorem State.modRecord_holdUp (s : State) (i : Slot) (g : DepositRecord → DepositRecord) : (s.modRecord i g).holdUp = s.holdUp := by
  unfold State.modRecord; split <;> rfl
@[simp] theorem State.modRecord_link (s : State) (i : Slot) (g : DepositRecord → DepositRecord) : (s.modRecord i g).link = s.link := by
  unfold State.modRecord; split <;> rfl

@[simp] theorem State.modBundle_pending (s : State) (pl : Place) (g : Bundle → Bundle) : (s.modBundle pl g).pending = s.pending := by
  unfold State.modBundle; split <;> rfl
@[simp] theorem State.modBundle_now (s : State) (pl : Place) (g : Bundle → Bundle) : (s.modBundle pl g).now = s.now := by
  unfold State.modBundle; split <;> rfl
@[simp] theorem State.modBundle_shifted (s : State) (pl : Place) (g : Bundle → Bundle) : (s.modBundle pl g).shifted = s.shifted := by
  unfold State.modBundle; split <;> rfl
@[simp] theorem State.modBundle_powered (s : State) (pl : Place) (g : Bundle → Bundle) : (s.modBundle pl g).powered = s.powered := by
  unfold State.modBundle; split <;> rfl
@[simp] theorem State.modBundle_resetLine (s : State) (pl : Place) (g : Bundle → Bundle) : (s.modBundle pl g).resetLine = s.resetLine := by
  unfold State.modBundle; split <;> rfl
@[simp] theorem State.modBundle_warning (s : State) (pl : Place) (g : Bundle → Bundle) : (s.modBundle pl g).warning = s.warning := by
  unfold State.modBundle; split <;> rfl
@[simp] theorem State.modBundle_config (s : State) (pl : Place) (g : Bundle → Bundle) : (s.modBundle pl g).config = s.config := by
  unfold State.modBundle; split <;> rfl
@[simp] theorem State.modBundle_checkWord (s : State) (pl : Place) (g : Bundle → Bundle) : (s.modBundle pl g).checkWord = s.checkWord := by
  unfold State.modBundle; split <;> rfl
@[simp] theorem State.modBundle_configFault (s : State) (pl : Place) (g : Bundle → Bundle) : (s.modBundle pl g).configFault = s.configFault := by
  unfold State.modBundle; split <;> rfl
@[simp] theorem State.modBundle_records (s : State) (pl : Place) (g : Bundle → Bundle) : (s.modBundle pl g).records = s.records := by
  unfold State.modBundle; split <;> rfl
@[simp] theorem State.modBundle_ports (s : State) (pl : Place) (g : Bundle → Bundle) : (s.modBundle pl g).ports = s.ports := by
  unfold State.modBundle; split <;> rfl
@[simp] theorem State.modBundle_waiting (s : State) (pl : Place) (g : Bundle → Bundle) : (s.modBundle pl g).waiting = s.waiting := by
  unfold State.modBundle; split <;> rfl
@[simp] theorem State.modBundle_queue (s : State) (pl : Place) (g : Bundle → Bundle) : (s.modBundle pl g).queue = s.queue := by
  unfold State.modBundle; split <;> rfl
@[simp] theorem State.modBundle_nextNumber (s : State) (pl : Place) (g : Bundle → Bundle) : (s.modBundle pl g).nextNumber = s.nextNumber := by
  unfold State.modBundle; split <;> rfl
@[simp] theorem State.modBundle_effective (s : State) (pl : Place) (g : Bundle → Bundle) : (s.modBundle pl g).effective = s.effective := by
  unfold State.modBundle; split <;> rfl
@[simp] theorem State.modBundle_pace (s : State) (pl : Place) (g : Bundle → Bundle) : (s.modBundle pl g).pace = s.pace := by
  unfold State.modBundle; split <;> rfl
@[simp] theorem State.modBundle_causes (s : State) (pl : Place) (g : Bundle → Bundle) : (s.modBundle pl g).causes = s.causes := by
  unfold State.modBundle; split <;> rfl
@[simp] theorem State.modBundle_holdUp (s : State) (pl : Place) (g : Bundle → Bundle) : (s.modBundle pl g).holdUp = s.holdUp := by
  unfold State.modBundle; split <;> rfl
@[simp] theorem State.modBundle_link (s : State) (pl : Place) (g : Bundle → Bundle) : (s.modBundle pl g).link = s.link := by
  unfold State.modBundle; split <;> rfl

@[simp] theorem State.send_pending (s : State) (p : PortId) (m : OutMessage) : (s.send p m).pending = s.pending := by
  unfold State.send; split <;> rfl
@[simp] theorem State.send_now (s : State) (p : PortId) (m : OutMessage) : (s.send p m).now = s.now := by
  unfold State.send; split <;> rfl
@[simp] theorem State.send_shifted (s : State) (p : PortId) (m : OutMessage) : (s.send p m).shifted = s.shifted := by
  unfold State.send; split <;> rfl
@[simp] theorem State.send_powered (s : State) (p : PortId) (m : OutMessage) : (s.send p m).powered = s.powered := by
  unfold State.send; split <;> rfl
@[simp] theorem State.send_resetLine (s : State) (p : PortId) (m : OutMessage) : (s.send p m).resetLine = s.resetLine := by
  unfold State.send; split <;> rfl
@[simp] theorem State.send_warning (s : State) (p : PortId) (m : OutMessage) : (s.send p m).warning = s.warning := by
  unfold State.send; split <;> rfl
@[simp] theorem State.send_config (s : State) (p : PortId) (m : OutMessage) : (s.send p m).config = s.config := by
  unfold State.send; split <;> rfl
@[simp] theorem State.send_checkWord (s : State) (p : PortId) (m : OutMessage) : (s.send p m).checkWord = s.checkWord := by
  unfold State.send; split <;> rfl
@[simp] theorem State.send_configFault (s : State) (p : PortId) (m : OutMessage) : (s.send p m).configFault = s.configFault := by
  unfold State.send; split <;> rfl
@[simp] theorem State.send_records (s : State) (p : PortId) (m : OutMessage) : (s.send p m).records = s.records := by
  unfold State.send; split <;> rfl
@[simp] theorem State.send_bindings (s : State) (p : PortId) (m : OutMessage) : (s.send p m).bindings = s.bindings := by
  unfold State.send; split <;> rfl
@[simp] theorem State.send_waiting (s : State) (p : PortId) (m : OutMessage) : (s.send p m).waiting = s.waiting := by
  unfold State.send; split <;> rfl
@[simp] theorem State.send_queue (s : State) (p : PortId) (m : OutMessage) : (s.send p m).queue = s.queue := by
  unfold State.send; split <;> rfl
@[simp] theorem State.send_nextNumber (s : State) (p : PortId) (m : OutMessage) : (s.send p m).nextNumber = s.nextNumber := by
  unfold State.send; split <;> rfl
@[simp] theorem State.send_effective (s : State) (p : PortId) (m : OutMessage) : (s.send p m).effective = s.effective := by
  unfold State.send; split <;> rfl
@[simp] theorem State.send_pace (s : State) (p : PortId) (m : OutMessage) : (s.send p m).pace = s.pace := by
  unfold State.send; split <;> rfl
@[simp] theorem State.send_causes (s : State) (p : PortId) (m : OutMessage) : (s.send p m).causes = s.causes := by
  unfold State.send; split <;> rfl
@[simp] theorem State.send_holdUp (s : State) (p : PortId) (m : OutMessage) : (s.send p m).holdUp = s.holdUp := by
  unfold State.send; split <;> rfl
@[simp] theorem State.send_link (s : State) (p : PortId) (m : OutMessage) : (s.send p m).link = s.link := by
  unfold State.send; split <;> rfl

@[simp] theorem State.sendIf_pending (s : State) (say : Bool) (p : PortId) (m : OutMessage) : (s.sendIf say p m).pending = s.pending := by
  unfold State.sendIf; split <;> simp
@[simp] theorem State.sendIf_now (s : State) (say : Bool) (p : PortId) (m : OutMessage) : (s.sendIf say p m).now = s.now := by
  unfold State.sendIf; split <;> simp
@[simp] theorem State.sendIf_shifted (s : State) (say : Bool) (p : PortId) (m : OutMessage) : (s.sendIf say p m).shifted = s.shifted := by
  unfold State.sendIf; split <;> simp
@[simp] theorem State.sendIf_powered (s : State) (say : Bool) (p : PortId) (m : OutMessage) : (s.sendIf say p m).powered = s.powered := by
  unfold State.sendIf; split <;> simp
@[simp] theorem State.sendIf_resetLine (s : State) (say : Bool) (p : PortId) (m : OutMessage) : (s.sendIf say p m).resetLine = s.resetLine := by
  unfold State.sendIf; split <;> simp
@[simp] theorem State.sendIf_warning (s : State) (say : Bool) (p : PortId) (m : OutMessage) : (s.sendIf say p m).warning = s.warning := by
  unfold State.sendIf; split <;> simp
@[simp] theorem State.sendIf_config (s : State) (say : Bool) (p : PortId) (m : OutMessage) : (s.sendIf say p m).config = s.config := by
  unfold State.sendIf; split <;> simp
@[simp] theorem State.sendIf_checkWord (s : State) (say : Bool) (p : PortId) (m : OutMessage) : (s.sendIf say p m).checkWord = s.checkWord := by
  unfold State.sendIf; split <;> simp
@[simp] theorem State.sendIf_configFault (s : State) (say : Bool) (p : PortId) (m : OutMessage) : (s.sendIf say p m).configFault = s.configFault := by
  unfold State.sendIf; split <;> simp
@[simp] theorem State.sendIf_records (s : State) (say : Bool) (p : PortId) (m : OutMessage) : (s.sendIf say p m).records = s.records := by
  unfold State.sendIf; split <;> simp
@[simp] theorem State.sendIf_bindings (s : State) (say : Bool) (p : PortId) (m : OutMessage) : (s.sendIf say p m).bindings = s.bindings := by
  unfold State.sendIf; split <;> simp
@[simp] theorem State.sendIf_waiting (s : State) (say : Bool) (p : PortId) (m : OutMessage) : (s.sendIf say p m).waiting = s.waiting := by
  unfold State.sendIf; split <;> simp
@[simp] theorem State.sendIf_queue (s : State) (say : Bool) (p : PortId) (m : OutMessage) : (s.sendIf say p m).queue = s.queue := by
  unfold State.sendIf; split <;> simp
@[simp] theorem State.sendIf_nextNumber (s : State) (say : Bool) (p : PortId) (m : OutMessage) : (s.sendIf say p m).nextNumber = s.nextNumber := by
  unfold State.sendIf; split <;> simp
@[simp] theorem State.sendIf_effective (s : State) (say : Bool) (p : PortId) (m : OutMessage) : (s.sendIf say p m).effective = s.effective := by
  unfold State.sendIf; split <;> simp
@[simp] theorem State.sendIf_pace (s : State) (say : Bool) (p : PortId) (m : OutMessage) : (s.sendIf say p m).pace = s.pace := by
  unfold State.sendIf; split <;> simp
@[simp] theorem State.sendIf_causes (s : State) (say : Bool) (p : PortId) (m : OutMessage) : (s.sendIf say p m).causes = s.causes := by
  unfold State.sendIf; split <;> simp
@[simp] theorem State.sendIf_holdUp (s : State) (say : Bool) (p : PortId) (m : OutMessage) : (s.sendIf say p m).holdUp = s.holdUp := by
  unfold State.sendIf; split <;> simp
@[simp] theorem State.sendIf_link (s : State) (say : Bool) (p : PortId) (m : OutMessage) : (s.sendIf say p m).link = s.link := by
  unfold State.sendIf; split <;> simp

@[simp] theorem State.setStop_pending (s : State) (say : Bool) (p : PortId) (x : StopSet) : (s.setStop say p x).pending = s.pending := by
  unfold State.setStop; repeat' split
  all_goals simp
@[simp] theorem State.setStop_now (s : State) (say : Bool) (p : PortId) (x : StopSet) : (s.setStop say p x).now = s.now := by
  unfold State.setStop; repeat' split
  all_goals simp
@[simp] theorem State.setStop_shifted (s : State) (say : Bool) (p : PortId) (x : StopSet) : (s.setStop say p x).shifted = s.shifted := by
  unfold State.setStop; repeat' split
  all_goals simp
@[simp] theorem State.setStop_powered (s : State) (say : Bool) (p : PortId) (x : StopSet) : (s.setStop say p x).powered = s.powered := by
  unfold State.setStop; repeat' split
  all_goals simp
@[simp] theorem State.setStop_resetLine (s : State) (say : Bool) (p : PortId) (x : StopSet) : (s.setStop say p x).resetLine = s.resetLine := by
  unfold State.setStop; repeat' split
  all_goals simp
@[simp] theorem State.setStop_warning (s : State) (say : Bool) (p : PortId) (x : StopSet) : (s.setStop say p x).warning = s.warning := by
  unfold State.setStop; repeat' split
  all_goals simp
@[simp] theorem State.setStop_config (s : State) (say : Bool) (p : PortId) (x : StopSet) : (s.setStop say p x).config = s.config := by
  unfold State.setStop; repeat' split
  all_goals simp
@[simp] theorem State.setStop_checkWord (s : State) (say : Bool) (p : PortId) (x : StopSet) : (s.setStop say p x).checkWord = s.checkWord := by
  unfold State.setStop; repeat' split
  all_goals simp
@[simp] theorem State.setStop_configFault (s : State) (say : Bool) (p : PortId) (x : StopSet) : (s.setStop say p x).configFault = s.configFault := by
  unfold State.setStop; repeat' split
  all_goals simp
@[simp] theorem State.setStop_records (s : State) (say : Bool) (p : PortId) (x : StopSet) : (s.setStop say p x).records = s.records := by
  unfold State.setStop; repeat' split
  all_goals simp
@[simp] theorem State.setStop_bindings (s : State) (say : Bool) (p : PortId) (x : StopSet) : (s.setStop say p x).bindings = s.bindings := by
  unfold State.setStop; repeat' split
  all_goals simp
@[simp] theorem State.setStop_waiting (s : State) (say : Bool) (p : PortId) (x : StopSet) : (s.setStop say p x).waiting = s.waiting := by
  unfold State.setStop; repeat' split
  all_goals simp
@[simp] theorem State.setStop_queue (s : State) (say : Bool) (p : PortId) (x : StopSet) : (s.setStop say p x).queue = s.queue := by
  unfold State.setStop; repeat' split
  all_goals simp
@[simp] theorem State.setStop_nextNumber (s : State) (say : Bool) (p : PortId) (x : StopSet) : (s.setStop say p x).nextNumber = s.nextNumber := by
  unfold State.setStop; repeat' split
  all_goals simp
@[simp] theorem State.setStop_effective (s : State) (say : Bool) (p : PortId) (x : StopSet) : (s.setStop say p x).effective = s.effective := by
  unfold State.setStop; repeat' split
  all_goals simp
@[simp] theorem State.setStop_pace (s : State) (say : Bool) (p : PortId) (x : StopSet) : (s.setStop say p x).pace = s.pace := by
  unfold State.setStop; repeat' split
  all_goals simp
@[simp] theorem State.setStop_causes (s : State) (say : Bool) (p : PortId) (x : StopSet) : (s.setStop say p x).causes = s.causes := by
  unfold State.setStop; repeat' split
  all_goals simp
@[simp] theorem State.setStop_holdUp (s : State) (say : Bool) (p : PortId) (x : StopSet) : (s.setStop say p x).holdUp = s.holdUp := by
  unfold State.setStop; repeat' split
  all_goals simp
@[simp] theorem State.setStop_link (s : State) (say : Bool) (p : PortId) (x : StopSet) : (s.setStop say p x).link = s.link := by
  unfold State.setStop; repeat' split
  all_goals simp

@[simp] theorem State.setHoldStop_pending (s : State) (say : Bool) (p : PortId) (on : Bool) : (s.setHoldStop say p on).pending = s.pending := by
  unfold State.setHoldStop; split <;> simp
@[simp] theorem State.setHoldStop_now (s : State) (say : Bool) (p : PortId) (on : Bool) : (s.setHoldStop say p on).now = s.now := by
  unfold State.setHoldStop; split <;> simp
@[simp] theorem State.setHoldStop_shifted (s : State) (say : Bool) (p : PortId) (on : Bool) : (s.setHoldStop say p on).shifted = s.shifted := by
  unfold State.setHoldStop; split <;> simp
@[simp] theorem State.setHoldStop_powered (s : State) (say : Bool) (p : PortId) (on : Bool) : (s.setHoldStop say p on).powered = s.powered := by
  unfold State.setHoldStop; split <;> simp
@[simp] theorem State.setHoldStop_resetLine (s : State) (say : Bool) (p : PortId) (on : Bool) : (s.setHoldStop say p on).resetLine = s.resetLine := by
  unfold State.setHoldStop; split <;> simp
@[simp] theorem State.setHoldStop_warning (s : State) (say : Bool) (p : PortId) (on : Bool) : (s.setHoldStop say p on).warning = s.warning := by
  unfold State.setHoldStop; split <;> simp
@[simp] theorem State.setHoldStop_config (s : State) (say : Bool) (p : PortId) (on : Bool) : (s.setHoldStop say p on).config = s.config := by
  unfold State.setHoldStop; split <;> simp
@[simp] theorem State.setHoldStop_checkWord (s : State) (say : Bool) (p : PortId) (on : Bool) : (s.setHoldStop say p on).checkWord = s.checkWord := by
  unfold State.setHoldStop; split <;> simp
@[simp] theorem State.setHoldStop_configFault (s : State) (say : Bool) (p : PortId) (on : Bool) : (s.setHoldStop say p on).configFault = s.configFault := by
  unfold State.setHoldStop; split <;> simp
@[simp] theorem State.setHoldStop_records (s : State) (say : Bool) (p : PortId) (on : Bool) : (s.setHoldStop say p on).records = s.records := by
  unfold State.setHoldStop; split <;> simp
@[simp] theorem State.setHoldStop_bindings (s : State) (say : Bool) (p : PortId) (on : Bool) : (s.setHoldStop say p on).bindings = s.bindings := by
  unfold State.setHoldStop; split <;> simp
@[simp] theorem State.setHoldStop_waiting (s : State) (say : Bool) (p : PortId) (on : Bool) : (s.setHoldStop say p on).waiting = s.waiting := by
  unfold State.setHoldStop; split <;> simp
@[simp] theorem State.setHoldStop_queue (s : State) (say : Bool) (p : PortId) (on : Bool) : (s.setHoldStop say p on).queue = s.queue := by
  unfold State.setHoldStop; split <;> simp
@[simp] theorem State.setHoldStop_nextNumber (s : State) (say : Bool) (p : PortId) (on : Bool) : (s.setHoldStop say p on).nextNumber = s.nextNumber := by
  unfold State.setHoldStop; split <;> simp
@[simp] theorem State.setHoldStop_effective (s : State) (say : Bool) (p : PortId) (on : Bool) : (s.setHoldStop say p on).effective = s.effective := by
  unfold State.setHoldStop; split <;> simp
@[simp] theorem State.setHoldStop_pace (s : State) (say : Bool) (p : PortId) (on : Bool) : (s.setHoldStop say p on).pace = s.pace := by
  unfold State.setHoldStop; split <;> simp
@[simp] theorem State.setHoldStop_causes (s : State) (say : Bool) (p : PortId) (on : Bool) : (s.setHoldStop say p on).causes = s.causes := by
  unfold State.setHoldStop; split <;> simp
@[simp] theorem State.setHoldStop_holdUp (s : State) (say : Bool) (p : PortId) (on : Bool) : (s.setHoldStop say p on).holdUp = s.holdUp := by
  unfold State.setHoldStop; split <;> simp
@[simp] theorem State.setHoldStop_link (s : State) (say : Bool) (p : PortId) (on : Bool) : (s.setHoldStop say p on).link = s.link := by
  unfold State.setHoldStop; split <;> simp

@[simp] theorem State.setPowerStop_pending (s : State) (p : PortId) (on : Bool) : (s.setPowerStop p on).pending = s.pending := by
  unfold State.setPowerStop; split <;> simp
@[simp] theorem State.setPowerStop_now (s : State) (p : PortId) (on : Bool) : (s.setPowerStop p on).now = s.now := by
  unfold State.setPowerStop; split <;> simp
@[simp] theorem State.setPowerStop_shifted (s : State) (p : PortId) (on : Bool) : (s.setPowerStop p on).shifted = s.shifted := by
  unfold State.setPowerStop; split <;> simp
@[simp] theorem State.setPowerStop_powered (s : State) (p : PortId) (on : Bool) : (s.setPowerStop p on).powered = s.powered := by
  unfold State.setPowerStop; split <;> simp
@[simp] theorem State.setPowerStop_resetLine (s : State) (p : PortId) (on : Bool) : (s.setPowerStop p on).resetLine = s.resetLine := by
  unfold State.setPowerStop; split <;> simp
@[simp] theorem State.setPowerStop_warning (s : State) (p : PortId) (on : Bool) : (s.setPowerStop p on).warning = s.warning := by
  unfold State.setPowerStop; split <;> simp
@[simp] theorem State.setPowerStop_config (s : State) (p : PortId) (on : Bool) : (s.setPowerStop p on).config = s.config := by
  unfold State.setPowerStop; split <;> simp
@[simp] theorem State.setPowerStop_checkWord (s : State) (p : PortId) (on : Bool) : (s.setPowerStop p on).checkWord = s.checkWord := by
  unfold State.setPowerStop; split <;> simp
@[simp] theorem State.setPowerStop_configFault (s : State) (p : PortId) (on : Bool) : (s.setPowerStop p on).configFault = s.configFault := by
  unfold State.setPowerStop; split <;> simp
@[simp] theorem State.setPowerStop_records (s : State) (p : PortId) (on : Bool) : (s.setPowerStop p on).records = s.records := by
  unfold State.setPowerStop; split <;> simp
@[simp] theorem State.setPowerStop_bindings (s : State) (p : PortId) (on : Bool) : (s.setPowerStop p on).bindings = s.bindings := by
  unfold State.setPowerStop; split <;> simp
@[simp] theorem State.setPowerStop_waiting (s : State) (p : PortId) (on : Bool) : (s.setPowerStop p on).waiting = s.waiting := by
  unfold State.setPowerStop; split <;> simp
@[simp] theorem State.setPowerStop_queue (s : State) (p : PortId) (on : Bool) : (s.setPowerStop p on).queue = s.queue := by
  unfold State.setPowerStop; split <;> simp
@[simp] theorem State.setPowerStop_nextNumber (s : State) (p : PortId) (on : Bool) : (s.setPowerStop p on).nextNumber = s.nextNumber := by
  unfold State.setPowerStop; split <;> simp
@[simp] theorem State.setPowerStop_effective (s : State) (p : PortId) (on : Bool) : (s.setPowerStop p on).effective = s.effective := by
  unfold State.setPowerStop; split <;> simp
@[simp] theorem State.setPowerStop_pace (s : State) (p : PortId) (on : Bool) : (s.setPowerStop p on).pace = s.pace := by
  unfold State.setPowerStop; split <;> simp
@[simp] theorem State.setPowerStop_causes (s : State) (p : PortId) (on : Bool) : (s.setPowerStop p on).causes = s.causes := by
  unfold State.setPowerStop; split <;> simp
@[simp] theorem State.setPowerStop_holdUp (s : State) (p : PortId) (on : Bool) : (s.setPowerStop p on).holdUp = s.holdUp := by
  unfold State.setPowerStop; split <;> simp
@[simp] theorem State.setPowerStop_link (s : State) (p : PortId) (on : Bool) : (s.setPowerStop p on).link = s.link := by
  unfold State.setPowerStop; split <;> simp

@[simp] theorem State.retestPocketFull_pending (s : State) (say : Bool) (p : PortId) : (s.retestPocketFull say p).pending = s.pending := by
  unfold State.retestPocketFull; split <;> simp
@[simp] theorem State.retestPocketFull_now (s : State) (say : Bool) (p : PortId) : (s.retestPocketFull say p).now = s.now := by
  unfold State.retestPocketFull; split <;> simp
@[simp] theorem State.retestPocketFull_shifted (s : State) (say : Bool) (p : PortId) : (s.retestPocketFull say p).shifted = s.shifted := by
  unfold State.retestPocketFull; split <;> simp
@[simp] theorem State.retestPocketFull_powered (s : State) (say : Bool) (p : PortId) : (s.retestPocketFull say p).powered = s.powered := by
  unfold State.retestPocketFull; split <;> simp
@[simp] theorem State.retestPocketFull_resetLine (s : State) (say : Bool) (p : PortId) : (s.retestPocketFull say p).resetLine = s.resetLine := by
  unfold State.retestPocketFull; split <;> simp
@[simp] theorem State.retestPocketFull_warning (s : State) (say : Bool) (p : PortId) : (s.retestPocketFull say p).warning = s.warning := by
  unfold State.retestPocketFull; split <;> simp
@[simp] theorem State.retestPocketFull_config (s : State) (say : Bool) (p : PortId) : (s.retestPocketFull say p).config = s.config := by
  unfold State.retestPocketFull; split <;> simp
@[simp] theorem State.retestPocketFull_checkWord (s : State) (say : Bool) (p : PortId) : (s.retestPocketFull say p).checkWord = s.checkWord := by
  unfold State.retestPocketFull; split <;> simp
@[simp] theorem State.retestPocketFull_configFault (s : State) (say : Bool) (p : PortId) : (s.retestPocketFull say p).configFault = s.configFault := by
  unfold State.retestPocketFull; split <;> simp
@[simp] theorem State.retestPocketFull_records (s : State) (say : Bool) (p : PortId) : (s.retestPocketFull say p).records = s.records := by
  unfold State.retestPocketFull; split <;> simp
@[simp] theorem State.retestPocketFull_bindings (s : State) (say : Bool) (p : PortId) : (s.retestPocketFull say p).bindings = s.bindings := by
  unfold State.retestPocketFull; split <;> simp
@[simp] theorem State.retestPocketFull_waiting (s : State) (say : Bool) (p : PortId) : (s.retestPocketFull say p).waiting = s.waiting := by
  unfold State.retestPocketFull; split <;> simp
@[simp] theorem State.retestPocketFull_queue (s : State) (say : Bool) (p : PortId) : (s.retestPocketFull say p).queue = s.queue := by
  unfold State.retestPocketFull; split <;> simp
@[simp] theorem State.retestPocketFull_nextNumber (s : State) (say : Bool) (p : PortId) : (s.retestPocketFull say p).nextNumber = s.nextNumber := by
  unfold State.retestPocketFull; split <;> simp
@[simp] theorem State.retestPocketFull_effective (s : State) (say : Bool) (p : PortId) : (s.retestPocketFull say p).effective = s.effective := by
  unfold State.retestPocketFull; split <;> simp
@[simp] theorem State.retestPocketFull_pace (s : State) (say : Bool) (p : PortId) : (s.retestPocketFull say p).pace = s.pace := by
  unfold State.retestPocketFull; split <;> simp
@[simp] theorem State.retestPocketFull_causes (s : State) (say : Bool) (p : PortId) : (s.retestPocketFull say p).causes = s.causes := by
  unfold State.retestPocketFull; split <;> simp
@[simp] theorem State.retestPocketFull_holdUp (s : State) (say : Bool) (p : PortId) : (s.retestPocketFull say p).holdUp = s.holdUp := by
  unfold State.retestPocketFull; split <;> simp
@[simp] theorem State.retestPocketFull_link (s : State) (say : Bool) (p : PortId) : (s.retestPocketFull say p).link = s.link := by
  unfold State.retestPocketFull; split <;> simp

/-! ### What the accessors read after an update -/

@[simp] theorem State.port_setPort_self (s : State) (p : PortId) (q : Port) : (s.setPort p q).port p = q := by
  simp [State.port, State.setPort]

theorem State.port_setPort_of_ne (s : State) {p p' : PortId} (q : Port) (h : p ≠ p') :
    (s.setPort p q).port p' = s.port p' := by
  have : p.val ≠ p'.val := fun e => h (Fin.ext e)
  simp [State.port, State.setPort, this]

@[simp] theorem State.port_modPort_self (s : State) (p : PortId) (g : Port → Port) :
    (s.modPort p g).port p = g (s.port p) := by
  simp [State.modPort]

theorem State.port_modPort_of_ne (s : State) {p p' : PortId} (g : Port → Port) (h : p ≠ p') :
    (s.modPort p g).port p' = s.port p' :=
  s.port_setPort_of_ne _ h

@[simp] theorem State.feed?_setFeed_self (s : State) (p : PortId) (f : Feed) :
    (s.setFeed p f).feed? p = some f := by
  simp [State.feed?, State.setFeed, Port.feed?]

@[simp] theorem State.record?_setRecord_self (s : State) (i : Slot) (r : Option DepositRecord) :
    (s.setRecord i r).record? i = r := by
  simp [State.record?, State.setRecord]

theorem State.record?_setRecord_of_ne (s : State) {i j : Slot} (r : Option DepositRecord) (h : i ≠ j) :
    (s.setRecord i r).record? j = s.record? j := by
  have : i.val ≠ j.val := fun e => h (Fin.ext e)
  simp [State.record?, State.setRecord, this]

@[simp] theorem State.binding_setBinding_self (s : State) (pl : Place) (b : Binding) :
    (s.setBinding pl b).binding pl = b := by
  simp [State.binding, State.setBinding]

theorem State.binding_setBinding_of_ne (s : State) {pl pl' : Place} (b : Binding) (h : pl ≠ pl') :
    (s.setBinding pl b).binding pl' = s.binding pl' := by
  have : pl.val ≠ pl'.val := fun e => h (Fin.ext e)
  simp [State.binding, State.setBinding, this]

/-- Two states that agree on the ports read the same ports. -/
theorem State.port_congr {s t : State} (h : s.ports = t.ports) (p : PortId) : s.port p = t.port p := by
  simp [State.port, h]

/-- Two states that agree on the records read the same records. -/
theorem State.record?_congr {s t : State} (h : s.records = t.records) (i : Slot) : s.record? i = t.record? i := by
  simp [State.record?, h]

/-- Two states that agree on the bindings read the same bindings. -/
theorem State.binding_congr {s t : State} (h : s.bindings = t.bindings) (pl : Place) :
    s.binding pl = t.binding pl := by
  simp [State.binding, h]

/-- A slot's record after `modRecord`. -/
theorem State.record?_modRecord (s : State) (i j : Slot) (g : DepositRecord → DepositRecord) :
    (s.modRecord i g).record? j = if i = j then (s.record? j).map g else s.record? j := by
  unfold State.modRecord
  by_cases h : i = j
  · subst h
    cases hr : s.record? i <;> simp [hr]
  · cases hr : s.record? i <;> simp [h, State.record?_setRecord_of_ne]

/-- A pocket's binding after `modBundle`. -/
theorem State.bundle?_modBundle (s : State) (pl pl' : Place) (g : Bundle → Bundle) :
    (s.modBundle pl g).bundle? pl' = if pl = pl' then (s.bundle? pl').map g else s.bundle? pl' := by
  unfold State.modBundle
  by_cases h : pl = pl'
  · subst h
    cases hb : s.bundle? pl with
    | none => simp [hb]
    | some b => simp [State.bundle?]
  · cases hb : s.bundle? pl with
    | none => simp [h]
    | some b => simp [State.bundle?, h, State.binding_setBinding_of_ne]

end Sys2Proof.Machine
end

