-- ==== Sys2Proof/Laws/Ops.lean ====
section
/-! SUPPORT. One lemma for each shared operation: all that it can do, in the terms of Safety.lean. -/

namespace Sys2Proof.Machine

/-! ### States as their parts -/

/-- Two port vectors with the same ports are equal. -/
theorem ports_ext {v w : Vector Port 4} (h : ∀ p : PortId, v[p.val] = w[p.val]) : v = w :=
  Vector.ext fun i hi => h ⟨i, hi⟩

/-- Two record tables with the same records are equal. -/
theorem records_ext {v w : Vector (Option DepositRecord) 128} (h : ∀ i : Slot, v[i.val] = w[i.val]) : v = w :=
  Vector.ext fun i hi => h ⟨i, hi⟩

/-- Two binding vectors with the same bindings are equal. -/
theorem bindings_ext {v w : Vector Binding 24} (h : ∀ pl : Place, v[pl.val] = w[pl.val]) : v = w :=
  Vector.ext fun i hi => h ⟨i, hi⟩

theorem State.port_setPort (s : State) (p x : PortId) (q : Port) :
    (s.setPort p q).port x = if x = p then q else s.port x := by
  by_cases h : x = p
  · subst h; simp
  · rw [if_neg h, s.port_setPort_of_ne q (Ne.symm h)]

theorem State.record?_setRecord (s : State) (i j : Slot) (r : Option DepositRecord) :
    (s.setRecord i r).record? j = if j = i then r else s.record? j := by
  by_cases h : j = i
  · subst h; simp
  · rw [if_neg h, s.record?_setRecord_of_ne r (Ne.symm h)]

theorem State.binding_setBinding (s : State) (pl x : Place) (b : Binding) :
    (s.setBinding pl b).binding x = if x = pl then b else s.binding x := by
  by_cases h : x = pl
  · subst h; simp
  · rw [if_neg h, s.binding_setBinding_of_ne b (Ne.symm h)]

/-- Writing back the port that stands there changes nothing. -/
@[simp] theorem State.setPort_port (s : State) (p : PortId) : s.setPort p (s.port p) = s := by
  have h : s.ports.set p.val (s.port p) = s.ports := by simp [State.port]
  unfold State.setPort
  rw [h]

@[simp] theorem State.setRecord_record? (s : State) (i : Slot) : s.setRecord i (s.record? i) = s := by
  have h : s.records.set i.val (s.record? i) = s.records := by simp [State.record?]
  unfold State.setRecord
  rw [h]

@[simp] theorem State.setPort_setPort (s : State) (p : PortId) (q q' : Port) :
    (s.setPort p q).setPort p q' = s.setPort p q' := by
  simp [State.setPort]

@[simp] theorem State.setRecord_setRecord (s : State) (i : Slot) (r r' : Option DepositRecord) :
    (s.setRecord i r).setRecord i r' = s.setRecord i r' := by
  simp [State.setRecord]

@[simp] theorem State.setBinding_setBinding (s : State) (pl : Place) (b b' : Binding) :
    (s.setBinding pl b).setBinding pl b' = s.setBinding pl b' := by
  simp [State.setBinding]

theorem State.modPort_modPort (s : State) (p : PortId) (g g' : Port → Port) :
    (s.modPort p g).modPort p g' = s.modPort p (g' ∘ g) := by
  simp [State.modPort]

/-- The feed of a port, from its state. -/
theorem State.feed?_eq_some {s : State} {p : PortId} {f : Feed} :
    s.feed? p = some f ↔ (s.port p).state = .feeding f := by
  unfold State.feed? Port.feed?
  cases (s.port p).state <;> simp

theorem State.feed?_eq_none {s : State} {p : PortId} :
    s.feed? p = none ↔ ∀ f, (s.port p).state ≠ .feeding f := by
  unfold State.feed? Port.feed?
  cases (s.port p).state <;> simp

theorem Port.isDown_eq_true {q : Port} : q.isDown = true ↔ q.state = .down := by
  unfold Port.isDown
  cases q.state <;> simp

theorem State.bundle?_eq_some {s : State} {pl : Place} {b : Bundle} :
    s.bundle? pl = some b ↔ s.binding pl = .bound b := by
  unfold State.bundle?
  cases s.binding pl <;> simp

theorem State.bundle?_eq_none {s : State} {pl : Place} :
    s.bundle? pl = none ↔ ∀ b, s.binding pl ≠ .bound b := by
  unfold State.bundle?
  cases s.binding pl <;> simp

/-! ### Messages and stop sets -/

/-- R50: `send` adds the message to the outgoing order of a port that is not DOWN, and does nothing else. -/
theorem State.send_eq (s : State) (p : PortId) (m : OutMessage) :
    s.send p m = s.modPort p fun q => if q.isDown then q else q.sends m := by
  unfold State.send State.modPort
  split
  · next h => simp [h]
  · next h => simp [h, Port.sends]

/-- A message sent to a port just written, which is not DOWN. -/
theorem State.send_setPort {q : Port} (h : q.isDown = false) (s : State) (p : PortId) (m : OutMessage) :
    (s.setPort p q).send p m = s.setPort p (q.sends m) := by
  simp [State.send_eq, State.modPort, h]

theorem StopSet.isEmpty_iff {t : StopSet} : t.isEmpty = true ↔ t = {} := by
  cases t with
  | mk a b c => cases a <;> cases b <;> cases c <;> simp [StopSet.isEmpty]

theorem StopSet.isEmpty_eq_false {t : StopSet} : t.isEmpty = false ↔ t ≠ {} := by
  rw [Ne, ← StopSet.isEmpty_iff, Bool.not_eq_true]

/-- The feed of a port, written back with its messages. -/
theorem State.sendIf_setFeed (s : State) (say : Bool) (p : PortId) (f : Feed) (m : OutMessage) :
    (s.setFeed p f).sendIf say p m =
      s.setPort p { s.port p with state := .feeding f, out := (s.port p).out ++ if say then [m] else [] } := by
  unfold State.sendIf State.setFeed State.modPort
  cases say
  · simp
  · exact State.send_setPort rfl s p m

/-- The port after a change of its stop set that is said or not. -/
def Port.stopChanged (q : Port) (say : Bool) (new : StopSet) : Port :=
  if say then q.takesStop new else { q.takesStop new with out := q.out }

/-- A port without a feed has no stop set. -/
theorem Port.stopChanged_of_no_feed {q : Port} (h : ∀ f, q.state ≠ .feeding f) (say : Bool) (new : StopSet) :
    q.stopChanged say new = q := by
  obtain ⟨st, _, _, _, _, _, _⟩ := q
  cases st with
  | feeding f => exact absurd rfl (h f)
  | down | ready | locked _ => cases say <;> rfl

/-- R60: a change that leaves the set as it is does nothing. -/
theorem Port.stopChanged_self {q : Port} {f : Feed} (h : q.state = .feeding f) (say : Bool) :
    q.stopChanged say f.stop = q := by
  obtain ⟨st, _, _, _, _, _, _⟩ := q
  cases h
  cases say <;> simp [Port.stopChanged, Port.takesStop]

/-- R60: a change of the stop set is a change of the port, and nothing else. -/
theorem State.setStop_eq (s : State) (say : Bool) (p : PortId) (new : StopSet) :
    s.setStop say p new = s.modPort p fun q => q.stopChanged say new := by
  unfold State.setStop State.modPort
  cases hf : s.feed? p with
  | none => simp [Port.stopChanged_of_no_feed (State.feed?_eq_none.1 hf)]
  | some f =>
    have h := State.feed?_eq_some.1 hf
    by_cases e : new = f.stop
    · simp [e, Port.stopChanged_self h]
    · unfold Port.stopChanged Port.takesStop
      simp only [h, e, if_false]
      by_cases e' : new = {}
      · have e2 : new.isEmpty = true := StopSet.isEmpty_iff.2 e'
        cases hs : f.state <;> cases say <;> simp [e2, State.sendIf_setFeed] <;>
          simp [State.setFeed, State.modPort, e']
      · have e2 : new.isEmpty = false := StopSet.isEmpty_eq_false.2 e'
        cases hs : f.state <;> cases say <;> simp [e2, State.sendIf_setFeed] <;>
          simp [State.setFeed, State.modPort, e']

/-- The three stop reasons, each through the port. -/
theorem State.setHoldStop_eq (s : State) (p : PortId) (on : Bool) :
    s.setHoldStop true p on = s.modPort p fun q => q.takesHold on := by
  unfold State.setHoldStop State.modPort Port.takesHold
  cases hf : s.feed? p with
  | none =>
    cases hq : (s.port p).state with
    | feeding f => exact absurd hq (State.feed?_eq_none.1 hf f)
    | down | ready | locked _ => simp [hq]
  | some f => simp [State.feed?_eq_some.1 hf, State.setStop_eq, State.modPort, Port.stopChanged]

theorem State.setPowerStop_eq (s : State) (p : PortId) (on : Bool) :
    s.setPowerStop p on = s.modPort p fun q => q.takesPower on := by
  unfold State.setPowerStop State.modPort Port.takesPower
  cases hf : s.feed? p with
  | none =>
    cases hq : (s.port p).state with
    | feeding f => exact absurd hq (State.feed?_eq_none.1 hf f)
    | down | ready | locked _ => simp [hq]
  | some f => simp [State.feed?_eq_some.1 hf, State.setStop_eq, State.modPort, Port.stopChanged]

theorem Port.pocketFull_eq (q : Port) (returnStop suspectStop : Nat) :
    q.pocketFull returnStop suspectStop = q.Full returnStop suspectStop := rfl

theorem State.retestPocketFull_eq (s : State) (p : PortId) :
    s.retestPocketFull true p = s.modPort p fun q => q.takesFull s.returnStop s.suspectStop := by
  unfold State.retestPocketFull State.modPort Port.takesFull
  cases hf : s.feed? p with
  | none =>
    cases hq : (s.port p).state with
    | feeding f => exact absurd hq (State.feed?_eq_none.1 hf f)
    | down | ready | locked _ => simp [hq]
  | some f =>
    simp [State.feed?_eq_some.1 hf, State.setStop_eq, State.modPort, Port.stopChanged, State.pocketFull,
      Port.pocketFull_eq]

/-! ### Folds over the ports -/

/-- The same change made at each port of a list. -/
theorem State.foldl_modPort (g : PortId → Port → Port) :
    ∀ (l : List PortId) (s : State), l.Nodup →
      l.foldl (fun t p => t.modPort p (g p)) s =
        { s with ports := Vector.ofFn fun p : PortId => if p ∈ l then g p (s.port p) else s.port p }
  | [], s, _ => by
    have h : (Vector.ofFn fun p : PortId => s.port p) = s.ports := Vector.ext fun i hi => by simp [State.port]
    simp [h]
  | x :: l, s, h => by
    have ⟨hx, hl⟩ := List.nodup_cons.1 h
    rw [List.foldl_cons, State.foldl_modPort g l _ hl]
    have hp (p : PortId) : (s.modPort x (g x)).port p = if p = x then g x (s.port x) else s.port p := by
      simp [State.modPort, State.port_setPort]
    have hv : (Vector.ofFn fun p : PortId =>
          if p ∈ l then g p ((s.modPort x (g x)).port p) else (s.modPort x (g x)).port p) =
        Vector.ofFn fun p : PortId => if p ∈ x :: l then g p (s.port p) else s.port p := by
      refine Vector.ext fun i hi => ?_
      simp only [Vector.getElem_ofFn, hp, List.mem_cons]
      by_cases e : (⟨i, hi⟩ : PortId) = x
      · subst e; simp [hx]
      · simp [e]
    rw [hv]
    rfl

theorem DepositRecord.mem_members {r : DepositRecord} {p : PortId} : p ∈ r.members ↔ r.feeding[p.val] = true := by
  simp [DepositRecord.members]

theorem DepositRecord.members_nodup (r : DepositRecord) : r.members.Nodup :=
  (List.nodup_finRange 4).filter _

theorem DepositRecord.feedingEmpty_iff {r : DepositRecord} :
    r.feedingEmpty = true ↔ ∀ p : PortId, r.feeding[p.val] = false := by
  simp [DepositRecord.feedingEmpty, DepositRecord.members, List.isEmpty_iff, List.filter_eq_nil_iff]

/-! ### Holds and departures -/

theorem RecordState.entersHeld_eq (st : RecordState) : st.entersHeld = st.Holdable := by
  cases st <;> rfl

/-- R36, R38: the record's side of a hold. -/
theorem DepositRecord.takeHold_eq (r : DepositRecord) (why : HoldReason) :
    r.takeHold why = r.afterHold fun h => h.add why := by
  unfold DepositRecord.takeHold DepositRecord.afterHold
  cases h : r.state <;> simp [RecordState.Holdable]

/-- R36, R60: all that a hold does that is said aloud: the record's side, and HOLD in the stop set of the feeding
set's feeds. -/
theorem State.holdRecord_eq {s : State} {i : Slot} {r : DepositRecord} (h : s.record? i = some r)
    (why : HoldReason) :
    s.holdRecord true i why =
      { s.setRecord i (some (r.afterHold fun h => h.add why)) with
        ports := Vector.ofFn fun p : PortId =>
          if r.state.Holdable && r.feeding[p.val] then (s.port p).takesHold true else s.port p } := by
  have hp (t : State) : t.ports = Vector.ofFn fun p : PortId => t.port p :=
    Vector.ext fun i hi => by simp [State.port]
  unfold State.holdRecord
  simp only [h, DepositRecord.takeHold_eq, RecordState.entersHeld_eq]
  cases hs : r.state.Holdable with
  | false => simp [← hp s, State.setRecord]
  | true =>
    simp only [if_true, State.setHoldStop_eq]
    rw [State.foldl_modPort (fun _ q => q.takesHold true) _ _ r.members_nodup]
    simp [DepositRecord.mem_members, State.port, State.setRecord]

/-- A FREE slot takes no hold. -/
theorem State.holdRecord_none {s : State} {i : Slot} (h : s.record? i = none) (say : Bool) (why : HoldReason) :
    s.holdRecord say i why = s := by
  simp [State.holdRecord, h]

/-- R36, R38: the records after a hold. -/
theorem State.holdRecord_record? (s : State) (i j : Slot) (why : HoldReason) :
    (s.holdRecord true i why).record? j =
      (s.record? j).map fun r => if i = j then r.afterHold (fun h => h.add why) else r := by
  cases hr : s.record? i with
  | none =>
    rw [State.holdRecord_none hr]
    by_cases hi : i = j
    · subst hi; simp [hr]
    · simp [hi]
  | some r =>
    rw [State.holdRecord_eq hr]
    refine (State.record?_congr (t := s.setRecord i (some (r.afterHold fun h => h.add why))) rfl j).trans ?_
    rw [State.record?_setRecord]
    by_cases hi : i = j
    · subst hi; simp [hr]
    · simp [hi, Ne.symm hi]

/-- R27, R42, R43: a departure without a hold: the feeding set loses the transport, and the idle timer of a
COUNTING record that no transport feeds any more starts from zero. -/
theorem State.depart_none {s : State} {i : Slot} {r : DepositRecord} (h : s.record? i = some r) (say : Bool)
    (p : PortId) :
    s.depart say i p none = s.setRecord i (some
      (DepositRecord.startIdle { r with feeding := r.feeding.set p.val false } s.now)) := by
  simp [State.depart, State.modRecord, h]

/-- R27, R42: a departure with a hold is the departure of the transport, then the hold. -/
theorem State.depart_some {s : State} {i : Slot} {r : DepositRecord} (h : s.record? i = some r) (say : Bool)
    (p : PortId) (why : HoldReason) :
    s.depart say i p (some why) =
      (s.setRecord i (some { r with feeding := r.feeding.set p.val false })).holdRecord say i why := by
  simp [State.depart, State.modRecord, h]

/-! ### The Pace Governor -/

/-- R137: all that a working out of the pace does. -/
theorem State.repace_eq (s : State) (unsaid : Option PortId) :
    s.repace unsaid =
      if s.paceFor s.effective = s.pace then s
      else { s with
        pace := s.paceFor s.effective
        ports := Vector.ofFn fun p : PortId =>
          if unsaid = some p ∨ (s.port p).isDown = true then s.port p
          else (s.port p).sends (.pace (s.paceFor s.effective)) } := by
  unfold State.repace
  simp only
  split
  · rfl
  · have hf (x : Nat) : (fun (t : State) (p : PortId) => if unsaid = some p then t else t.send p (.pace x)) =
        fun t p => t.modPort p fun q => if unsaid = some p ∨ q.isDown = true then q else q.sends (.pace x) := by
      funext t p
      rw [State.send_eq]
      by_cases h : unsaid = some p
      · simp [h, State.modPort]
      · simp [h]
    rw [hf, State.foldl_modPort _ _ _ (List.nodup_finRange 4)]
    simp only [List.mem_finRange, if_true, State.port]
    congr!

/-- R135, R137: the fields that the judging of the backlog leaves as they are. -/
theorem State.judgeBacklog_frame (s : State) (b0 : Nat) (unsaid : Option PortId) :
    let t := s.judgeBacklog b0 unsaid
    t = { s with effective := t.effective, pace := t.pace, ports := t.ports } := by
  simp only [State.judgeBacklog, State.repace_eq]
  repeat' split
  all_goals rfl

/-- R135: the effective backlog after the judging of a backlog that was `b0`. -/
theorem State.judgeBacklog_effective (s : State) (b0 : Nat) (unsaid : Option PortId) :
    (s.judgeBacklog b0 unsaid).effective =
      if s.backlog = b0 then s.effective else effectiveAfter s.backlog s.effective s.hysteresis := by
  simp only [State.judgeBacklog, State.repace_eq]
  repeat' split
  all_goals simp_all

/-- R137: the pace after the judging of the backlog. -/
theorem State.judgeBacklog_pace (s : State) (b0 : Nat) (unsaid : Option PortId) :
    (s.judgeBacklog b0 unsaid).pace =
      if (s.judgeBacklog b0 unsaid).effective = s.effective then s.pace
      else s.paceFor (s.judgeBacklog b0 unsaid).effective := by
  have hp (e : Nat) : ({ s with effective := e } : State).paceFor e = s.paceFor e := rfl
  simp only [State.judgeBacklog, State.repace_eq]
  repeat' split
  all_goals simp_all

/-- R137: a port after the judging of the backlog: a Pace where the pace has changed, and nothing else. -/
theorem State.judgeBacklog_port (s : State) (b0 : Nat) (unsaid : Option PortId) (p : PortId) :
    (s.judgeBacklog b0 unsaid).port p =
      if (s.judgeBacklog b0 unsaid).pace = s.pace ∨ unsaid = some p ∨ (s.port p).isDown = true then s.port p
      else (s.port p).sends (.pace (s.judgeBacklog b0 unsaid).pace) := by
  simp only [State.judgeBacklog, State.repace_eq]
  repeat' split
  all_goals simp_all [State.port]

/-- R135, R137: all that the judging of the backlog does. -/
theorem State.judgeBacklog_eq (s : State) (b0 : Nat) (unsaid : Option PortId) :
    s.judgeBacklog b0 unsaid = s.governed b0 unsaid := by
  have hmoved (e : Nat) : (if e = s.effective then s else ({ s with effective := e } : State).repace unsaid) =
      { s with
        effective := e
        pace := s.paceFrom e
        ports :=
          if s.paceFrom e = s.pace then s.ports
          else Vector.ofFn fun p : PortId =>
            if unsaid = some p ∨ (s.port p).isDown = true then s.port p
            else (s.port p).sends (.pace (s.paceFrom e)) } := by
    have he : ({ s with effective := e } : State).paceFor e = s.paceFor e := rfl
    by_cases h : e = s.effective
    · simp [State.paceFrom, h]
    · rw [if_neg h, State.repace_eq]
      simp only [he, State.paceFrom, h, if_false]
      by_cases hx : s.paceFor e = s.pace
      · simp only [hx, if_true]
      · simp only [hx, if_false]
        rfl
  unfold State.judgeBacklog State.governed State.effectiveFrom effectiveAfter
  dsimp only
  by_cases hb : s.backlog = b0
  · rw [if_pos hb, if_pos hb, ← hmoved, if_pos rfl]
  · rw [if_neg hb, if_neg hb, hmoved]

/-! ### The Collection Queue -/

theorem numberAfter_eq (n : BitVec 32) : numberAfter n = numbersAfter 1 n := rfl

/-- R128: all that entering the queue does to a bound bundle. -/
theorem State.enterQueue_eq {s : State} {pl : Place} {b : Bundle} (h : s.binding pl = .bound b) :
    s.enterQueue pl =
      ({ s.setBinding pl (.bound { b with state := .strapping, number := some s.nextNumber }) with
        nextNumber := numbersAfter 1 s.nextNumber
        queue := s.queue ++ [.inPocket pl] } : State).send (placePort pl)
          (.strapOrder (placePocket pl) s.nextNumber) := by
  simp [State.enterQueue, State.modBundle, State.bundle?_eq_some.2 h, numberAfter_eq]

/-- R123: all that the completion of a bound bundle does. -/
theorem State.complete_eq {s : State} {pl : Place} {b : Bundle} (h : s.binding pl = .bound b) :
    s.complete pl =
      if s.queue.length < 16 ∧ s.waiting = [] then s.enterQueue pl
      else { s.setBinding pl (.bound { b with state := .completeWaiting }) with waiting := s.waiting ++ [pl] } := by
  simp [State.complete, State.modBundle, State.bundle?_eq_some.2 h, Config.queueCapacity, State.setBinding]

end Sys2Proof.Machine
end

