-- ==== Sys2Proof/Laws/Queue.lean ====
section
/-! SUPPORT. What entering the Collection Queue, promotion and a short close do to the whole state. -/

namespace Sys2Proof.Machine

/-! ### States that differ in the ports' messages alone -/

/-- The ports of `t` are those of `s` but for what they have been sent. -/
def SamePortsButOut (s t : State) : Prop :=
  ∀ p, t.port p = { s.port p with out := (t.port p).out } ∧ (s.port p).out <+: (t.port p).out

theorem SamePortsButOut.refl (s : State) : SamePortsButOut s s :=
  fun _ => ⟨rfl, List.prefix_rfl⟩

theorem SamePortsButOut.trans {s t u : State} (h : SamePortsButOut s t) (h' : SamePortsButOut t u) :
    SamePortsButOut s u := fun p => by
  refine ⟨?_, (h p).2.trans (h' p).2⟩
  rw [(h' p).1, (h p).1]

/-- A message changes a port's outgoing order alone. -/
theorem State.send_samePorts (s : State) (p : PortId) (m : OutMessage) : SamePortsButOut s (s.send p m) := fun x => by
  rw [State.send_eq]
  unfold State.modPort
  rw [State.port_setPort]
  by_cases h : x = p
  · subst h
    cases hd : (s.port x).isDown <;> simp [hd, Port.sends]
  · simp [h]

/-- Two states with the same ports. -/
theorem SamePortsButOut.of_ports {s t : State} (h : t.ports = s.ports) : SamePortsButOut s t := fun p => by
  rw [State.port_congr h p]
  exact ⟨rfl, List.prefix_rfl⟩

/-- Two tests that agree on a list take the same of it. -/
theorem takeWhile_congr {α : Type} {f g : α → Bool} {l : List α} (h : ∀ x ∈ l, f x = g x) :
    l.takeWhile f = l.takeWhile g := by
  induction l with
  | nil => rfl
  | cons y l ih =>
    rw [List.takeWhile_cons, List.takeWhile_cons, h y (by simp), ih fun x hm => h x (by simp [hm])]

/-! ### Entering the queue -/

/-- R128: the fields after a bundle has entered the queue. -/
theorem State.enterQueue_fields {s : State} {pl : Place} {b : Bundle} (h : s.binding pl = .bound b) :
    (s.enterQueue pl).queue = s.queue ++ [.inPocket pl] ∧
    (s.enterQueue pl).waiting = s.waiting ∧
    (s.enterQueue pl).nextNumber = numbersAfter 1 s.nextNumber ∧
    (∀ x, (s.enterQueue pl).binding x =
      if x = pl then .bound { b with state := .strapping, number := some s.nextNumber } else s.binding x) ∧
    SamePortsButOut s (s.enterQueue pl) ∧
    s.enterQueue pl = { s with
      ports := (s.enterQueue pl).ports, bindings := (s.enterQueue pl).bindings, queue := (s.enterQueue pl).queue
      nextNumber := (s.enterQueue pl).nextNumber } := by
  rw [State.enterQueue_eq h]
  refine ⟨by simp, by simp, by simp, fun x => ?_, ?_, ?_⟩
  · rw [State.binding_congr (t := s.setBinding pl
      (.bound { b with state := .strapping, number := some s.nextNumber })) (by simp [State.setBinding]),
      State.binding_setBinding]
  · exact (SamePortsButOut.of_ports (by simp)).trans (State.send_samePorts _ _ _)
  · rw [State.send_eq]
    rfl

/-- A pocket's bundle state, from its binding. -/
theorem State.bundleState?_eq_some {s : State} {pl : Place} {st : BundleState} :
    s.bundleState? pl = some st ↔ ∃ b, s.binding pl = .bound b ∧ b.state = st := by
  unfold State.bundleState? State.bundle?
  cases s.binding pl <;> simp

/-! ### Several bundles entering, one after another (R128) -/

/-- Nothing enters, and the state stands. -/
theorem State.entering_nil (s : State) : s.entering [] = s := by
  have hp : (s.entering []).ports = s.ports := ports_ext fun p => by
    simp [State.entering, strapOrders, State.port]
  have hb : (s.entering []).bindings = s.bindings := bindings_ext fun pl => by
    simp only [State.entering, Vector.getElem_ofFn, Fin.eta, List.not_mem_nil, if_false]
    change _ = s.binding pl
    cases s.binding pl <;> rfl
  have hq : (s.entering []).queue = s.queue := List.append_nil _
  have hrest : s.entering [] = { s with
      ports := (s.entering []).ports, bindings := (s.entering []).bindings, queue := (s.entering []).queue } := rfl
  rw [hrest, hp, hb, hq]

/-- R128: the first of several bundles enters, then the others. -/
theorem State.entering_cons {s : State} {pl : Place} {b : Bundle} {l : List Place} (h : s.binding pl = .bound b)
    (hl : pl ∉ l) : s.entering (pl :: l) = (s.enterQueue pl).entering l := by
  obtain ⟨e1, e2, e3, e4, -, e6⟩ := State.enterQueue_fields h
  have hports (p : PortId) : (s.enterQueue pl).port p =
      if (s.port p).isDown then s.port p
      else { s.port p with
        out := (s.port p).out ++ if placePort pl = p then [.strapOrder (placePocket pl) s.nextNumber] else [] } := by
    rw [State.enterQueue_eq h, State.send_eq]
    unfold State.modPort
    rw [State.port_setPort]
    have hs (x : PortId) : State.port
        { s.setBinding pl (.bound { b with state := .strapping, number := some s.nextNumber }) with
          nextNumber := numbersAfter 1 s.nextNumber, queue := s.queue ++ [.inPocket pl] } x = s.port x := rfl
    rw [hs, hs]
    by_cases hp : p = placePort pl
    · rw [if_pos hp, if_pos hp.symm, hp]
      rfl
    · rw [if_neg hp, if_neg (Ne.symm hp)]
      simp
  have hdown (p : PortId) : ((s.enterQueue pl).port p).isDown = (s.port p).isDown := by
    rw [hports]
    split
    · rfl
    · simp [Port.isDown]
  have hp : ((s.enterQueue pl).entering l).ports = (s.entering (pl :: l)).ports := ports_ext fun p => by
    simp only [State.entering, Vector.getElem_ofFn, Fin.eta, hdown, e3]
    rw [hports]
    split
    · rfl
    · simp [strapOrders]
  have hb : ((s.enterQueue pl).entering l).bindings = (s.entering (pl :: l)).bindings := bindings_ext fun x => by
    simp only [State.entering, Vector.getElem_ofFn, Fin.eta, e3, e4, List.mem_cons]
    by_cases hx : x = pl
    · subst hx
      simp [h, hl, numbersAfter]
    · simp only [hx, if_false, false_or]
      cases hbx : s.binding x with
      | bound c =>
        by_cases hm : x ∈ l
        · simp only [hm, if_true, List.idxOf_cons_ne l (Ne.symm hx)]
          rfl
        · simp [hm]
      | _ => rfl
  have hq : ((s.enterQueue pl).entering l).queue = (s.entering (pl :: l)).queue := by
    simp [State.entering, e1]
  have hn : ((s.enterQueue pl).entering l).nextNumber = (s.entering (pl :: l)).nextNumber := by
    simp only [State.entering, e3]
    rfl
  have hrest : (s.enterQueue pl).entering l = { s with
      ports := ((s.enterQueue pl).entering l).ports, bindings := ((s.enterQueue pl).entering l).bindings
      queue := ((s.enterQueue pl).entering l).queue, nextNumber := ((s.enterQueue pl).entering l).nextNumber } := by
    generalize s.enterQueue pl = v at e6 ⊢
    rw [e6]
    rfl
  rw [hrest, hp, hb, hq, hn]
  rfl

/-! ### Promotion (R127) -/

/-- Nothing is promotable, and the state stands. -/
theorem State.promoted_of_none {s : State} (h : s.promotable = 0) : s.promoted = s := by
  simp only [State.promoted, h, List.drop_zero, List.take_zero]
  exact State.entering_nil s

/-- R127: the head of the waiting list is not promoted where the queue is full or the head is not
COMPLETE_WAITING. -/
theorem State.promotable_eq_zero {s : State} {pl : Place} {rest : List Place} (hw : s.waiting = pl :: rest)
    (h : ¬ (s.queue.length < 16 ∧ s.bundleState? pl = some .completeWaiting)) : s.promotable = 0 := by
  by_cases hs : s.bundleState? pl = some .completeWaiting
  · have hq : ¬ s.queue.length < 16 := fun hlt => h ⟨hlt, hs⟩
    have : 16 - s.queue.length = 0 := by omega
    simp [State.promotable, this]
  · simp [State.promotable, hw, hs]

theorem State.promoteUpTo_stop {s : State} {pl : Place} {rest : List Place} (n : Nat) (hw : s.waiting = pl :: rest)
    (h : ¬ (s.queue.length < 16 ∧ s.bundleState? pl = some .completeWaiting)) :
    State.promoteUpTo (n + 1) s = s := by
  simp only [State.promoteUpTo, hw, Config.queueCapacity]
  split
  · rfl
  · next b hb =>
    rw [if_neg]
    intro hc
    exact h ⟨hc.1, by simp [State.bundleState?, hb, hc.2]⟩

theorem State.promoteUpTo_go {s : State} {pl : Place} {rest : List Place} {b : Bundle} (n : Nat)
    (hw : s.waiting = pl :: rest) (hq : s.queue.length < 16) (hb : s.binding pl = .bound b)
    (hs : b.state = .completeWaiting) :
    State.promoteUpTo (n + 1) s = State.promoteUpTo n (({ s with waiting := rest } : State).enterQueue pl) := by
  simp [State.promoteUpTo, hw, Config.queueCapacity, State.bundle?_eq_some.2 hb, hq, hs]

/-- R127: one promotion, and what follows it. -/
theorem State.promoted_step {s : State} {pl : Place} {rest : List Place} {b : Bundle} (hw : s.waiting = pl :: rest)
    (hn : s.waiting.Nodup) (hq : s.queue.length < 16) (hb : s.binding pl = .bound b)
    (hs : b.state = .completeWaiting) :
    s.promoted = (({ s with waiting := rest } : State).enterQueue pl).promoted := by
  have hb' (l : List Place) : ({ s with waiting := l } : State).binding pl = .bound b := hb
  obtain ⟨e1, e2, -, e4, -, -⟩ := State.enterQueue_fields (hb' rest)
  obtain ⟨hx, -⟩ := List.nodup_cons.1 (hw ▸ hn)
  have hl : (rest.takeWhile fun x => (({ s with waiting := rest } : State).enterQueue pl).bundleState? x =
      some .completeWaiting) = rest.takeWhile fun x => s.bundleState? x = some .completeWaiting :=
    takeWhile_congr fun x hm => by
      have hne : x ≠ pl := fun e => hx (e ▸ hm)
      have : (({ s with waiting := rest } : State).enterQueue pl).bundleState? x = s.bundleState? x := by
        simp only [State.bundleState?, State.bundle?, e4, hne, if_false]
        rfl
      rw [this]
  have hk : s.promotable = (({ s with waiting := rest } : State).enterQueue pl).promotable + 1 := by
    have h0 : s.bundleState? pl = some .completeWaiting := State.bundleState?_eq_some.2 ⟨b, hb, hs⟩
    simp only [State.promotable, hw, e1, e2, List.takeWhile_cons, h0, decide_true, if_true, hl]
    simp only [List.length_cons, List.length_append, List.length_nil]
    omega
  have hlate (l : List Place) : ({ (({ s with waiting := rest } : State).enterQueue pl) with waiting := l } : State) =
      ({ s with waiting := l } : State).enterQueue pl := by
    rw [State.enterQueue_eq (hb' rest), State.enterQueue_eq (hb' l), State.send_eq, State.send_eq]
    rfl
  simp only [State.promoted, hk, hw, e2, List.drop_succ_cons, List.take_succ_cons, hlate]
  exact State.entering_cons (hb' _) fun hm => hx (List.mem_of_mem_take hm)

/-- R127: promotion, made one at a time, is the promotions that R127 gives. -/
theorem State.promoteUpTo_eq : ∀ (n : Nat) (s : State), s.waiting.length ≤ n → s.waiting.Nodup →
    State.promoteUpTo n s = s.promoted
  | 0, s, h, _ => by
    have hw : s.waiting = [] := List.length_eq_zero_iff.1 (Nat.le_zero.1 h)
    have h0 : s.promotable = 0 := by simp [State.promotable, hw]
    exact (State.promoted_of_none h0).symm
  | n + 1, s, h, hn => by
    cases hw : s.waiting with
    | nil =>
      rw [State.promoted_of_none (by simp [State.promotable, hw])]
      simp [State.promoteUpTo, hw]
    | cons pl rest =>
      by_cases hc : s.queue.length < 16 ∧ s.bundleState? pl = some .completeWaiting
      · obtain ⟨b, hb, hs⟩ := State.bundleState?_eq_some.1 hc.2
        have hb' : ({ s with waiting := rest } : State).binding pl = .bound b := hb
        obtain ⟨-, e2, -, -, -, -⟩ := State.enterQueue_fields hb'
        rw [State.promoteUpTo_go n hw hc.1 hb hs, State.promoted_step hw hn hc.1 hb hs]
        exact State.promoteUpTo_eq n _ (by rw [e2]; rw [hw] at h; simpa using h)
          (by rw [e2]; exact (List.nodup_cons.1 (hw ▸ hn)).2)
      · rw [State.promoteUpTo_stop n hw hc, State.promoted_of_none (State.promotable_eq_zero hw hc)]

/-- R127: all that promotion does. -/
theorem State.promote_eq {s : State} (hn : s.waiting.Nodup) : s.promote = s.promoted :=
  State.promoteUpTo_eq s.waiting.length s le_rfl hn

/-- R123: the completion of one bound bundle. -/
theorem State.complete_completing {s : State} {pl : Place} {b : Bundle} (h : s.binding pl = .bound b) :
    s.complete pl = s.completing [pl] := by
  rw [State.complete_eq h]
  by_cases hr : s.queue.length < 16 ∧ s.waiting = []
  · have hk : s.queueRoom [pl].length = 1 := by
      simp only [State.queueRoom, hr.2, if_true, List.length_singleton]
      omega
    have he : s.entering [pl] = s.enterQueue pl := by
      rw [State.entering_cons h List.not_mem_nil, State.entering_nil]
    have hc : s.completing [pl] = { s.enterQueue pl with
        bindings := (s.completing [pl]).bindings, waiting := (s.completing [pl]).waiting } := by
      unfold State.completing
      simp only [hk, List.take_succ_cons, List.take_zero, he]
    have hb : (s.completing [pl]).bindings = (s.enterQueue pl).bindings := bindings_ext fun x => by
      simp only [State.completing, hk, List.take_succ_cons, List.take_zero, List.drop_succ_cons, List.drop_zero, he,
        Vector.getElem_ofFn, Fin.eta, List.not_mem_nil, if_false]
      change _ = (s.enterQueue pl).binding x
      cases (s.enterQueue pl).binding x <;> rfl
    have hw : (s.completing [pl]).waiting = (s.enterQueue pl).waiting := by
      rw [(State.enterQueue_fields h).2.1]
      simp only [State.completing, hk, List.drop_succ_cons, List.drop_zero, List.append_nil]
    rw [if_pos hr, hc, hb, hw]
  · have hk : s.queueRoom [pl].length = 0 := by
      simp only [State.queueRoom, List.length_singleton]
      split
      · next hw =>
        have : ¬ s.queue.length < 16 := fun h => hr ⟨h, hw⟩
        omega
      · rfl
    have hb : (s.completing [pl]).bindings =
        (s.setBinding pl (.bound { b with state := .completeWaiting })).bindings := bindings_ext fun x => by
      simp only [State.completing, hk, List.take_zero, State.entering_nil, List.drop_zero, Vector.getElem_ofFn, Fin.eta,
        List.mem_singleton]
      change _ = (s.setBinding pl (.bound { b with state := .completeWaiting })).binding x
      rw [State.binding_setBinding]
      by_cases hx : x = pl
      · rw [hx, h]
      · simp only [hx, if_false]
        cases s.binding x <;> rfl
    have hc : s.completing [pl] = { s with
        bindings := (s.completing [pl]).bindings, waiting := (s.completing [pl]).waiting } := by
      unfold State.completing
      simp only [hk, List.take_zero, State.entering_nil]
    rw [if_neg hr, hc, hb]
    simp only [State.completing, hk, List.drop_zero]
    rfl

end Sys2Proof.Machine
end

