-- ==== Sys2Proof/Laws/Losses.lean ====
section
/-! SUPPORT. What the loss of in-flight entries does to the whole state (R106, R107). -/

namespace Sys2Proof.Machine

/-! ### Places -/

theorem placeOf_eq_some {p : PortId} {k : Pocket} {pl : Place} :
    placeOf p k = some pl ↔ placePort pl = p ∧ placePocket pl = k := by
  unfold placeOf placePort placePocket
  constructor
  · intro h
    split at h
    · obtain rfl := Option.some.inj h
      constructor <;> apply Fin.ext <;> simp <;> omega
    · cases h
  · rintro ⟨rfl, rfl⟩
    simp
    apply Fin.ext
    simp
    omega

theorem placeOf_eq_none {p : PortId} {k : Pocket} : placeOf p k = none ↔ k = 0 ∨ k = 1 := by
  unfold placeOf
  rw [Fin.ext_iff, Fin.ext_iff]
  split <;> simp <;> omega

/-! ### One reservation -/

/-- All that the completion of a bundle leaves as it is. -/
theorem State.complete_frame {s : State} {pl : Place} {b : Bundle} (h : s.binding pl = .bound b) :
    SamePortsButOut s (s.complete pl) ∧ (∀ x, x ≠ pl → (s.complete pl).binding x = s.binding x) ∧
    s.complete pl = { s with
      ports := (s.complete pl).ports, bindings := (s.complete pl).bindings, waiting := (s.complete pl).waiting
      queue := (s.complete pl).queue, nextNumber := (s.complete pl).nextNumber } := by
  rw [State.complete_eq h]
  split
  · obtain ⟨-, e2, -, e4, e5, e6⟩ := State.enterQueue_fields h
    refine ⟨e5, fun x hx => by rw [e4, if_neg hx], ?_⟩
    generalize s.enterQueue pl = v at e2 e6 ⊢
    rw [e6]
  · refine ⟨SamePortsButOut.of_ports rfl, fun x hx => ?_, rfl⟩
    have hb := State.binding_setBinding s pl x (.bound { b with state := .completeWaiting })
    rw [if_neg hx] at hb
    exact hb

/-- R106, R107: all that the loss of a reservation leaves as it is. -/
theorem State.loseReservation_frame (s : State) (pulled : Option Place) (pl : Place) (i : Option Slot) :
    let t := s.loseReservation pulled pl i
    SamePortsButOut s t ∧ (∀ x, x ≠ pl → t.binding x = s.binding x) ∧
    t = { s with
      ports := t.ports, bindings := t.bindings, waiting := t.waiting, queue := t.queue, nextNumber := t.nextNumber } := by
  have hset (b : Binding) :
      SamePortsButOut s (s.setBinding pl b) ∧ (∀ x, x ≠ pl → (s.setBinding pl b).binding x = s.binding x) ∧
      s.setBinding pl b = { s with
        ports := (s.setBinding pl b).ports, bindings := (s.setBinding pl b).bindings
        waiting := (s.setBinding pl b).waiting, queue := (s.setBinding pl b).queue
        nextNumber := (s.setBinding pl b).nextNumber } :=
    ⟨SamePortsButOut.of_ports rfl, fun x hx => by rw [State.binding_setBinding, if_neg hx], rfl⟩
  have hnone : SamePortsButOut s s ∧ (∀ x, x ≠ pl → s.binding x = s.binding x) ∧
      s = { s with
        ports := s.ports, bindings := s.bindings, waiting := s.waiting, queue := s.queue, nextNumber := s.nextNumber } :=
    ⟨SamePortsButOut.refl s, fun _ _ => rfl, rfl⟩
  dsimp only
  unfold State.loseReservation
  split
  · exact hnone
  · next b0 hb =>
    dsimp only
    split
    · exact hset _
    · exact hset _
    · split
      · exact hset _
      · split
        · exact hset _
        · split
          · exact hset _
          · obtain ⟨c1, c2, c3⟩ := State.complete_frame (s := s.setBinding pl (.bound (b0.giveBack i)))
              (State.binding_setBinding_self s pl _)
            refine ⟨(hset _).1.trans c1, fun x hx => (c2 x hx).trans ((hset _).2.1 x hx), ?_⟩
            rw [c3]
            rfl
    all_goals exact hset _

/-! ### One entry -/

/-- R25, R106: a record after the loss of one entry. -/
def DepositRecord.afterLoss (i : Slot) (e : Entry) (r : DepositRecord) : DepositRecord :=
  if e.slot = some i then r.takeLoss (2 ≤ e.pocket.val) else r

theorem placeOf_isSome (p : PortId) (k : Pocket) : (placeOf p k).isSome = decide (2 ≤ k.val) := by
  unfold placeOf
  split <;> simp_all

/-- What the events at one port leave: the other ports but for their messages, and everything outside the hall. -/
structure Touches (p : PortId) (s t : State) : Prop where
  others : ∀ x, x ≠ p → t.port x = { s.port x with out := (t.port x).out } ∧ (s.port x).out <+: (t.port x).out
  said : (s.port p).out <+: (t.port p).out
  frame : t = { s with
    records := t.records, ports := t.ports, bindings := t.bindings, waiting := t.waiting, queue := t.queue
    nextNumber := t.nextNumber }

theorem Touches.refl (p : PortId) (s : State) : Touches p s s :=
  ⟨fun _ _ => ⟨rfl, List.prefix_rfl⟩, List.prefix_rfl, rfl⟩

theorem Touches.trans {p : PortId} {s t u : State} (h : Touches p s t) (h' : Touches p t u) : Touches p s u := by
  refine ⟨fun x hx => ⟨?_, (h.others x hx).2.trans (h'.others x hx).2⟩, h.said.trans h'.said, ?_⟩
  · rw [(h'.others x hx).1, (h.others x hx).1]
  · have h1 := h'.frame
    rw [h.frame] at h1
    exact h1

theorem Touches.of_samePorts {p : PortId} {s t : State} (h : SamePortsButOut s t)
    (hf : t = { s with
      records := t.records, ports := t.ports, bindings := t.bindings, waiting := t.waiting, queue := t.queue
      nextNumber := t.nextNumber }) : Touches p s t :=
  ⟨fun x _ => h x, (h p).2, hf⟩

theorem Touches.modPort {p : PortId} {s : State} {g : Port → Port} (h : (s.port p).out <+: (g (s.port p)).out) :
    Touches p s (s.modPort p g) := by
  refine ⟨fun x hx => ?_, by simpa using h, rfl⟩
  rw [State.port_modPort_of_ne s g (Ne.symm hx)]
  exact ⟨rfl, List.prefix_rfl⟩

theorem Touches.modRecord (p : PortId) (s : State) (i : Slot) (g : DepositRecord → DepositRecord) :
    Touches p s (s.modRecord i g) :=
  Touches.of_samePorts (SamePortsButOut.of_ports (by simp)) (by unfold State.modRecord; split <;> rfl)

theorem Touches.modFeed (p : PortId) (s : State) (g : Feed → Feed) : Touches p s (s.modFeed p g) := by
  unfold State.modFeed
  split
  · exact Touches.modPort List.prefix_rfl
  · exact Touches.refl p s

theorem Port.takesStop_out (q : Port) (new : StopSet) : q.out <+: (q.takesStop new).out := by
  unfold Port.takesStop
  repeat' split
  all_goals simp

theorem Touches.setStop (p : PortId) (s : State) (say : Bool) (new : StopSet) :
    Touches p s (s.setStop say p new) := by
  rw [State.setStop_eq]
  refine Touches.modPort ?_
  unfold Port.stopChanged
  split
  · exact Port.takesStop_out _ _
  · exact List.prefix_rfl

theorem Touches.retestPocketFull (p : PortId) (s : State) (say : Bool) :
    Touches p s (s.retestPocketFull say p) := by
  unfold State.retestPocketFull
  split
  · exact Touches.setStop p s say _
  · exact Touches.refl p s

theorem Port.takesStop_window (q : Port) (new : StopSet) : (q.takesStop new).window = q.window := by
  unfold Port.takesStop
  repeat' split
  all_goals rfl

theorem State.setStop_window (s : State) (say : Bool) (p x : PortId) (new : StopSet) :
    ((s.setStop say p new).port x).window = (s.port x).window := by
  rw [State.setStop_eq]
  unfold State.modPort
  rw [State.port_setPort]
  split
  · next h =>
    subst h
    unfold Port.stopChanged
    split <;> simp [Port.takesStop_window]
  · rfl

theorem State.retestPocketFull_window (s : State) (say : Bool) (p x : PortId) :
    ((s.retestPocketFull say p).port x).window = (s.port x).window := by
  unfold State.retestPocketFull
  split
  · exact State.setStop_window s say p x _
  · rfl

theorem State.modFeed_window (s : State) (p x : PortId) (g : Feed → Feed) :
    ((s.modFeed p g).port x).window = (s.port x).window := by
  unfold State.modFeed State.setFeed State.modPort
  split
  · rw [State.port_setPort]
    split
    · next h => rw [h]
    · rfl
  · rfl

/-- R106: the window, the records and the frame after the loss of an entry. -/
theorem State.loseEntry_spec (s : State) (say : Bool) (pulled : Option Place) (p : PortId) (e : Entry) :
    let t := s.loseEntry say pulled p e
    (t.port p).window = (s.port p).window.filter (fun x => x.seq ≠ e.seq) ∧
    (∀ i, t.record? i = (s.record? i).map (DepositRecord.afterLoss i e)) ∧
    (∀ x, placeOf p e.pocket ≠ some x → t.binding x = s.binding x) ∧
    Touches p s t := by
  let s1 := s.modPort p fun q => { q with window := q.window.filter fun x => x.seq ≠ e.seq }
  let s2 := match placeOf p e.pocket with
    | none => s1.modPort p fun q => q.modStack e.pocket fun k => { k with inFlight := k.inFlight - 1 }
    | some pl => s1.loseReservation pulled pl e.slot
  let s3 := match e.slot with
    | none => s2
    | some i =>
      (s2.modRecord i fun r => r.takeLoss (placeOf p e.pocket).isSome).modFeed p fun f =>
        { f with lost := bump f.lost }
  have ht : s.loseEntry say pulled p e = match placeOf p e.pocket with
    | none => s3.retestPocketFull say p
    | some _ => s3 := rfl
  have h1 : Touches p s s1 := Touches.modPort List.prefix_rfl
  have w1 : (s1.port p).window = (s.port p).window.filter (fun x => x.seq ≠ e.seq) := by simp [s1]
  have h2 : Touches p s1 s2 ∧ (s2.port p).window = (s1.port p).window ∧ s2.records = s.records ∧
      ∀ x, placeOf p e.pocket ≠ some x → s2.binding x = s.binding x := by
    cases hp : placeOf p e.pocket with
    | none =>
      have hs : s2 = s1.modPort p fun q => q.modStack e.pocket fun k => { k with inFlight := k.inFlight - 1 } := by
        simp only [s2, hp]
      have hm (q : Port) (g : StackCount → StackCount) :
          (q.modStack e.pocket g).out = q.out ∧ (q.modStack e.pocket g).window = q.window := by
        unfold Port.modStack
        repeat' split
        all_goals exact ⟨rfl, rfl⟩
      rw [hs]
      refine ⟨Touches.modPort (by rw [(hm _ _).1]), ?_, rfl, fun x _ => rfl⟩
      rw [State.port_modPort_self, (hm _ _).2]
    | some pl =>
      have hs : s2 = s1.loseReservation pulled pl e.slot := by simp only [s2, hp]
      obtain ⟨f1, f2, f3⟩ := State.loseReservation_frame s1 pulled pl e.slot
      rw [hs]
      refine ⟨Touches.of_samePorts f1 (by rw [f3]), ?_, by rw [f3]; rfl, fun x hx => ?_⟩
      · rw [(f1 p).1]
      · exact f2 x fun hxe => hx (by rw [hxe])
  obtain ⟨t2, w2, r2, b2⟩ := h2
  have h3 : Touches p s2 s3 ∧ (s3.port p).window = (s2.port p).window ∧ s3.bindings = s2.bindings ∧
      ∀ i, s3.record? i = (s2.record? i).map (DepositRecord.afterLoss i e) := by
    cases hi : e.slot with
    | none =>
      have hs : s3 = s2 := by simp only [s3, hi]
      rw [hs]
      refine ⟨Touches.refl p s2, rfl, rfl, fun i => ?_⟩
      have : DepositRecord.afterLoss i e = id := by
        funext r
        simp [DepositRecord.afterLoss, hi]
      simp [this]
    | some j =>
      have hs : s3 = (s2.modRecord j fun r => r.takeLoss (placeOf p e.pocket).isSome).modFeed p fun f =>
          { f with lost := bump f.lost } := by simp only [s3, hi]
      rw [hs]
      refine ⟨(Touches.modRecord p s2 j _).trans (Touches.modFeed p _ _), ?_, by simp, fun i => ?_⟩
      · rw [State.modFeed_window]
        simp [State.port]
      · rw [State.record?_congr (t := s2.modRecord j fun r => r.takeLoss (placeOf p e.pocket).isSome) (by simp),
          State.record?_modRecord]
        split
        · next hji =>
          subst hji
          congr 1
          funext r
          simp [DepositRecord.afterLoss, hi, placeOf_isSome]
        · next hji =>
          have : DepositRecord.afterLoss i e = id := by
            funext r
            simp [DepositRecord.afterLoss, hi, hji]
          simp [this]
  obtain ⟨t3, w3, b3, r3⟩ := h3
  have h4 : Touches p s3 (s.loseEntry say pulled p e) ∧
      ((s.loseEntry say pulled p e).port p).window = (s3.port p).window ∧
      (s.loseEntry say pulled p e).bindings = s3.bindings ∧
      (s.loseEntry say pulled p e).records = s3.records := by
    rw [ht]
    split
    · exact ⟨Touches.retestPocketFull p s3 say, State.retestPocketFull_window s3 say p p, by simp, by simp⟩
    · exact ⟨Touches.refl p s3, rfl, rfl, rfl⟩
  obtain ⟨t4, w4, b4, r4⟩ := h4
  refine ⟨by rw [w4, w3, w2, w1], fun i => ?_, fun x hx => ?_, ((h1.trans t2).trans t3).trans t4⟩
  · rw [State.record?_congr r4, r3, State.record?_congr r2]
  · rw [State.binding_congr b4, State.binding_congr b3, b2 x hx]

/-! ### The whole window -/

/-- R25: the losses of some entries, one after another, are a saturating count of them. -/
theorem DepositRecord.afterLosses_cons (i : Slot) (e : Entry) (w : List Entry) (r : DepositRecord)
    (h : r.lost ≤ 65535) :
    (DepositRecord.afterLoss i e r).afterLosses i w = r.afterLosses i (e :: w) ∧
      (DepositRecord.afterLoss i e r).lost ≤ 65535 := by
  unfold DepositRecord.afterLoss
  split
  · next he =>
    have hl : lossesOf i (e :: w) = e :: lossesOf i w := by simp [lossesOf, he]
    refine ⟨?_, by simp [DepositRecord.takeLoss, bump, Config.countLimit]⟩
    have hs : ∀ n : Nat, (r.flags.saturated || atLimit r.lost || decide (65535 < bump r.lost + n)) =
        (r.flags.saturated || decide (65535 < r.lost + (n + 1))) := fun n => by
      cases r.flags.saturated
      · rw [Bool.eq_iff_iff]
        simp only [atLimit, Bool.false_or, Bool.or_eq_true, decide_eq_true_eq]
        simp only [bump, Config.countLimit]
        omega
      · simp
    have hm : ∀ n : Nat, min (bump r.lost + n) 65535 = min (r.lost + (n + 1)) 65535 := fun n => by
      simp only [bump, Config.countLimit]
      omega
    unfold DepositRecord.afterLosses DepositRecord.takeLoss
    simp only [hl, List.length_cons, hs, hm]
    by_cases hp : 2 ≤ e.pocket.val <;> simp [hp]
    omega
  · next he =>
    have hl : lossesOf i (e :: w) = lossesOf i w := by simp [lossesOf, he]
    exact ⟨by unfold DepositRecord.afterLosses; rw [hl], h⟩

/-- R106: entries lost one after another: the window, the records and the frame. -/
theorem State.foldl_loseEntry (say : Bool) (pulled : Option Place) (p : PortId) :
    ∀ (w : List Entry) (s : State), s.LostInRange →
      let t := w.foldl (fun t e => t.loseEntry say pulled p e) s
      (t.port p).window = (s.port p).window.filter (fun x => w.all fun e => x.seq ≠ e.seq) ∧
      (∀ i, t.record? i = (s.record? i).map (DepositRecord.afterLosses i w)) ∧
      (∀ x, (∀ e ∈ w, placeOf p e.pocket ≠ some x) → t.binding x = s.binding x) ∧ Touches p s t
  | [], s, hs => by
    refine ⟨by simp, fun i => ?_, fun _ _ => rfl, Touches.refl p s⟩
    cases hr : s.record? i with
    | none => simp [hr]
    | some r =>
      have := hs i r hr
      have hm : min r.lost 65535 = r.lost := by omega
      have hn : ¬ 65535 < r.lost := by omega
      simp [hr, DepositRecord.afterLosses, lossesOf, hm, hn]
  | e :: w, s, hs => by
    obtain ⟨a1, a2, a3, a4⟩ := State.loseEntry_spec s say pulled p e
    have hs' : (s.loseEntry say pulled p e).LostInRange := fun i r hr => by
      rw [a2] at hr
      obtain ⟨r0, h0, rfl⟩ := Option.map_eq_some_iff.1 hr
      exact (DepositRecord.afterLosses_cons i e w r0 (hs i r0 h0)).2
    obtain ⟨b1, b2, b3, b4⟩ := State.foldl_loseEntry say pulled p w (s.loseEntry say pulled p e) hs'
    refine ⟨?_, fun i => ?_, fun x hx => ?_, a4.trans b4⟩
    · rw [List.foldl_cons, b1, a1, List.filter_filter]
      congr 1
      funext x
      simp [Bool.and_comm]
    · rw [List.foldl_cons, b2, a2]
      cases hr : s.record? i with
      | none => rfl
      | some r => simp [(DepositRecord.afterLosses_cons i e w r (hs i r hr)).1]
    · rw [List.foldl_cons, b3 x fun e' he' => hx e' (List.mem_cons_of_mem _ he'), a3 x (hx e List.mem_cons_self)]

/-- R106: the loss of a whole window: it is empty, every record has its losses, and only the pockets that its
entries name are judged. -/
theorem State.loseWindow_spec {s : State} (hs : s.LostInRange) (say : Bool) (pulled : Option Place) (p : PortId) :
    let t := s.loseWindow say pulled p
    let w := (s.port p).window
    (t.port p).window = [] ∧
    (∀ i, t.record? i = (s.record? i).map (DepositRecord.afterLosses i w)) ∧
    (∀ x, (∀ e ∈ w, placeOf p e.pocket ≠ some x) → t.binding x = s.binding x) ∧ Touches p s t := by
  obtain ⟨h1, h2⟩ := State.foldl_loseEntry say pulled p (s.port p).window s hs
  refine ⟨?_, h2⟩
  unfold State.loseWindow
  rw [h1, List.filter_eq_nil_iff]
  intro x hx
  simp only [List.all_eq_true, decide_eq_true_eq, not_forall]
  exact ⟨x, hx, by simp⟩

end Sys2Proof.Machine
end

