-- ==== Sys2Proof/Laws/Closing.lean ====
section
/-! SUPPORT. What a short close, and a voiding, leave of the whole state (R115, R122). -/

namespace Sys2Proof.Machine

/-- What the Bundle Assembler's own events leave: the ports but for their messages, and everything outside the
ports, the bindings and the two lists. -/
structure Assembles (s t : State) : Prop where
  ports : SamePortsButOut s t
  frame : t = { s with
    ports := t.ports, bindings := t.bindings, waiting := t.waiting, queue := t.queue, nextNumber := t.nextNumber }

theorem Assembles.refl (s : State) : Assembles s s :=
  ⟨SamePortsButOut.refl s, rfl⟩

theorem Assembles.trans {s t u : State} (h : Assembles s t) (h' : Assembles t u) : Assembles s u := by
  refine ⟨h.ports.trans h'.ports, ?_⟩
  have h1 := h'.frame
  rw [h.frame] at h1
  exact h1

theorem Assembles.setBinding (s : State) (pl : Place) (b : Binding) : Assembles s (s.setBinding pl b) :=
  ⟨SamePortsButOut.of_ports rfl, rfl⟩

theorem Assembles.complete {s : State} {pl : Place} {b : Bundle} (h : s.binding pl = .bound b) :
    Assembles s (s.complete pl) :=
  have c := State.complete_frame h
  ⟨c.1, c.2.2⟩

/-- R122: one bundle's short close, and the pockets that it does not reach. -/
theorem Closing.closeOne_frame (sel : Bundle → Bool) (c : Closing) (pl : Place) :
    Assembles c.state (c.closeOne sel pl).state ∧
    ∀ x, x ≠ pl → (c.closeOne sel pl).state.binding x = c.state.binding x := by
  unfold Closing.closeOne
  have hset (b : Binding) : Assembles c.state (c.state.setBinding pl b) ∧
      ∀ x, x ≠ pl → (c.state.setBinding pl b).binding x = c.state.binding x :=
    ⟨Assembles.setBinding _ _ _, fun x hx => by rw [State.binding_setBinding, if_neg hx]⟩
  have hsame : Assembles c.state c.state ∧ ∀ x, x ≠ pl → c.state.binding x = c.state.binding x :=
    ⟨Assembles.refl _, fun _ _ => rfl⟩
  split
  · exact hsame
  · next b hb =>
    split
    · split
      · dsimp only
        split
        · have hb' := State.binding_setBinding_self c.state pl (.bound { b with state := .closing, short := true })
          exact ⟨(hset _).1.trans (Assembles.complete hb'),
            fun x hx => ((State.complete_frame hb').2.1 x hx).trans ((hset _).2 x hx)⟩
        · exact hset _
      all_goals first | exact hset _ | exact hsame
    · exact hsame

/-- R122, R124, R125: a short close leaves the records, and all that no bundle event touches. -/
theorem State.shortClose_frame (s : State) (sel : Bundle → Bool) : Assembles s (s.shortClose sel).state := by
  have h : ∀ (l : List Place) (c : Closing), Assembles c.state (l.foldl (Closing.closeOne sel) c).state := by
    intro l
    induction l with
    | nil => exact fun c => Assembles.refl _
    | cons pl l ih => exact fun c => (Closing.closeOne_frame sel c pl).1.trans (ih _)
  exact h _ { state := s, reached := 0, completed := 0 }

/-- R115: what one contribution's voiding does to the records. -/
theorem State.voidContribution_record? (s : State) (c : Contribution) (i : Slot) :
    (s.voidContribution c).record? i = (s.record? i).map fun r =>
      if c.slot = i ∧ r.reference = c.reference then
        DepositRecord.afterHold
          { r with
            voided := r.voided + (c.fit + c.unfit)
            flags := { r.flags with voidedNotes := true } }
          fun h => { h with custody := true }
      else r := by
  unfold State.voidContribution
  cases hr : s.record? c.slot with
  | none =>
    by_cases hi : c.slot = i
    · subst hi; simp [hr]
    · simp [hi]
  | some r =>
    by_cases he : r.reference = c.reference
    · simp only [he, if_true]
      rw [State.holdRecord_record?, State.record?_setRecord]
      by_cases hi : c.slot = i
      · subst hi; simp [hr, he, HoldReasons.add]
      · simp [hi, Ne.symm hi]
    · simp only [he, if_false]
      by_cases hi : c.slot = i
      · subst hi; simp [hr, he]
      · simp [hi]

end Sys2Proof.Machine
end

