-- ==== Sys2Proof/Laws/Codec.lean ====
section
/-! SUPPORT. Numbers as bytes and bytes as numbers (R167), and the fields of a body. -/

namespace Sys2Proof

/-! ### Messages on a line (R49, R179) -/

@[simp] theorem messageFrame_length (type : Byte) (body : List Byte) :
    (messageFrame type body).length = body.length + 2 := rfl

/-- R49: a message that is laid out is the next one of its line, and its length byte sets its boundary. -/
theorem nextFrame_messageFrame (type : Byte) {body : List Byte} (h : body.length ≤ 255) (rest : List Byte) :
    nextFrame (messageFrame type body ++ rest) = some (type, body, rest) := by
  have hn : body.length % 256 = body.length := Nat.mod_eq_of_lt (by omega)
  simp [messageFrame, nextFrame, hn]

/-- R49, R179: a body that is read is of one of the eight types, with that type's length. -/
theorem readMessage_shape {p : PortId} {type : Byte} {body : List Byte} {c : Instr}
    (h : readMessage p type body = some c) :
    0x10 ≤ type.toNat ∧ type.toNat ≤ 0x17 ∧ bodyLengthOf type = some body.length := by
  unfold readMessage at h
  split at h <;> rename_i e <;> first | cases h | skip
  all_goals
    split at h <;> first | cases h | skip
    exact ⟨by omega, by omega, by simp [bodyLengthOf, e]⟩

/-- R179: every message to a transport has the body length of its type. -/
theorem Machine.OutMessage.bodyLengthOf_bytes (m : Machine.OutMessage) :
    bodyLengthOf m.bytes.1 = some m.bytes.2.length := by
  cases m <;> rfl

@[simp] theorem Machine.Port.line_nil {q : Machine.Port} (h : q.out = []) : q.line = [] := by
  simp [Machine.Port.line, h]

/-- R50: a message that is added to the outgoing order stands last on the line. -/
theorem Machine.Port.line_append (q : Machine.Port) (m : Machine.OutMessage) :
    Machine.Port.line { q with out := q.out ++ [m] } = q.line ++ m.frame := by
  simp [Machine.Port.line]

/-! ### Numbers -/

@[simp] theorem bytesOf_length : ∀ n v : Nat, (bytesOf n v).length = n
  | 0, _ => rfl
  | n + 1, v => by simp [bytesOf, bytesOf_length n v]

/-- R167: the first byte is the most significant. -/
theorem natOf_cons (b : Byte) (l : List Byte) : natOf (b :: l) = b.toNat * 256 ^ l.length + natOf l := by
  have h : ∀ (l : List Byte) (n : Nat), l.foldl (fun n b => n * 256 + b.toNat) n = n * 256 ^ l.length + natOf l := by
    intro l
    induction l with
    | nil => intro n; simp [natOf]
    | cons c l ih =>
      intro n
      simp only [natOf, List.foldl_cons, List.length_cons]
      rw [ih, ih (0 * 256 + c.toNat)]
      ring
  have := h (b :: l) 0
  simp only [natOf, List.foldl_cons] at *
  rw [h]
  simp

@[simp] theorem natOf_nil : natOf [] = 0 := rfl

theorem natOf_append (l m : List Byte) : natOf (l ++ m) = natOf l * 256 ^ m.length + natOf m := by
  induction l with
  | nil => simp
  | cons b l ih =>
    rw [List.cons_append, natOf_cons, natOf_cons, ih, List.length_append]
    ring

theorem natOf_lt (l : List Byte) : natOf l < 256 ^ l.length := by
  induction l with
  | nil => simp
  | cons b l ih =>
    have hb : b.toNat ≤ 255 := by have := b.isLt; omega
    have hm : b.toNat * 256 ^ l.length ≤ 255 * 256 ^ l.length := Nat.mul_le_mul_right _ hb
    rw [natOf_cons, List.length_cons, pow_succ]
    omega

/-- R167: the number that its own bytes spell is its low part. -/
theorem natOf_bytesOf : ∀ n v : Nat, natOf (bytesOf n v) = v % 256 ^ n
  | 0, v => by simp [bytesOf, Nat.mod_one]
  | n + 1, v => by
    have e := Nat.mod_mul (x := v) (a := 256 ^ n) (b := 256)
    rw [bytesOf, natOf_cons, bytesOf_length, natOf_bytesOf n v, BitVec.toNat_ofNat, Nat.pow_succ 256 n, e,
      Nat.mul_comm, Nat.add_comm]

/-- R167: the bytes of a number that bytes spell are those bytes. -/
theorem bytesOf_natOf (l : List Byte) : bytesOf l.length (natOf l) = l := by
  have h : ∀ n a v : Nat, bytesOf n (a * 256 ^ n + v) = bytesOf n v := by
    intro n
    induction n with
    | zero => intro a v; rfl
    | succ n ih =>
      intro a v
      have e : a * 256 ^ (n + 1) + v = (a * 256) * 256 ^ n + v := by ring
      rw [bytesOf, bytesOf, e, ih]
      congr 1
      apply BitVec.eq_of_toNat_eq
      have hp : 0 < 256 ^ n := by positivity
      rw [BitVec.toNat_ofNat, BitVec.toNat_ofNat, Nat.mul_comm, Nat.mul_add_div hp]
      omega
  induction l with
  | nil => rfl
  | cons b l ih =>
    rw [List.length_cons, bytesOf, natOf_cons, h, ih]
    congr 1
    apply BitVec.eq_of_toNat_eq
    have := natOf_lt l
    have hb := b.isLt
    rw [BitVec.toNat_ofNat, Nat.mul_comm, Nat.mul_add_div (by positivity), Nat.div_eq_of_lt this]
    omega

namespace Machine

/-- A field of a body that begins with other bytes. -/
theorem field_append_right (l m : List Byte) (k len : Nat) : field (l ++ m) (l.length + k) len = field m k len := by
  have h : l.drop (l.length + k) = [] := List.drop_eq_nil_of_le (by omega)
  simp [field, List.drop_append, h]

/-- A field within the first part of a body. -/
theorem field_append_left {l : List Byte} (m : List Byte) {off len : Nat} (h : off + len ≤ l.length) :
    field (l ++ m) off len = field l off len := by
  unfold field
  rw [List.drop_append_of_le_length (by omega), List.take_append_of_le_length (by simp; omega)]

/-- A field that is the whole of a number's bytes. -/
theorem field_bytesOf (n v : Nat) : field (bytesOf n v) 0 n = v % 256 ^ n := by
  have h : (bytesOf n v).take n = bytesOf n v := by
    rw [List.take_of_length_le]
    simp
  simp [field, h, natOf_bytesOf]

/-- A field of one byte is the byte there. -/
theorem field_one (l : List Byte) (off : Nat) : field l off 1 = (byteAt l off).toNat := by
  unfold field byteAt
  cases h : l.drop off with
  | nil =>
    have : l[off]? = none := by simpa [List.drop_eq_nil_iff] using h
    simp [List.getD, this]
  | cons b m =>
    have : l[off]? = some b := by
      have := congrArg List.head? h
      simpa [List.head?_drop] using this
    simp [List.getD, this, natOf]

theorem padTo_length (n : Nat) (l : List Byte) (h : l.length ≤ n) : (padTo n l).length = n := by
  simp [padTo]
  omega

end Machine

end Sys2Proof
end

