-- ==== Sys2Proof/Laws/Ending.lean ====
section
/-! SUPPORT. What the end of a feed and a stray note leave of the whole state (R63, R102, R104). -/

namespace Sys2Proof.Machine

/-- R63: the end of a feed, at its port and its record, with what the departure did to the records and the other
ports. -/
theorem State.ended_of {s t : State} {p : PortId} {n : Nat} {f : Feed} {r r' : DepositRecord}
    (hf : (s.port p).state = .feeding f)
    (hr : r' = (if n = f.reported ∧ f.reported < 65535 then
        if r.state = .counting ∧ ∀ x : PortId, (r.feeding.set p.val false)[x.val] = false then
          { r with feeding := r.feeding.set p.val false, idleSince := some s.now }
        else { r with feeding := r.feeding.set p.val false }
      else ({ r with feeding := r.feeding.set p.val false } : DepositRecord).afterHold
        fun h => { h with feedMismatch := true }))
    (ht : t = { s.setRecord f.slot (some r') with ports := t.ports }) (hp : t.port p = s.port p)
    (hx : ∀ x, x ≠ p → t.port x =
      if ¬ (n = f.reported ∧ f.reported < 65535) ∧ r.state.Holdable = true ∧ r.feeding[x.val] = true then
        (s.port x).takesHold true
      else s.port x) :
    ((t.send p (.endDone f.reported f.banded f.suspect f.returned f.lost)).modPort p fun q =>
      { q with aborted := 0, state := .ready }) = s.ended p n f r := by
  have hd : (t.port p).isDown = false := by rw [hp]; simp [Port.isDown, hf]
  have hports : ((t.send p (.endDone f.reported f.banded f.suspect f.returned f.lost)).modPort p fun q =>
      { q with aborted := 0, state := .ready }).ports = (s.ended p n f r).ports := ports_ext fun x => by
    change State.port _ x = State.port _ x
    rw [State.send_eq, State.modPort_modPort]
    unfold State.modPort
    rw [State.port_setPort]
    simp only [State.ended, State.port, Vector.getElem_ofFn, Fin.eta]
    by_cases h : x = p
    · subst h
      change (if _ then _ else _) = _
      rw [if_pos rfl, if_pos rfl]
      have hp' : t.ports[x.val] = s.ports[x.val] := hp
      have hd' : s.ports[x.val].isDown = false := by rw [← hp']; exact hd
      simp [Port.sends, hp', hd']
    · rw [if_neg h, if_neg h]
      refine (hx x h).trans ?_
      by_cases ha : n = f.reported ∧ f.reported < 65535
      · simp [ha.1, ha.2, State.port]
      · simp only [ha, not_false_eq_true, true_and]
        have : (Decidable.decide (n = f.reported) && Decidable.decide (f.reported < 65535)) = false := by
          rw [← Bool.decide_and, decide_eq_false ha]
        simp only [this, Bool.not_false, Bool.true_and, Bool.and_eq_true]
        rfl
  have hrest : ((t.send p (.endDone f.reported f.banded f.suspect f.returned f.lost)).modPort p fun q =>
      { q with aborted := 0, state := .ready }) = { s.setRecord f.slot (some r') with
        ports := ((t.send p (.endDone f.reported f.banded f.suspect f.returned f.lost)).modPort p fun q =>
          { q with aborted := 0, state := .ready }).ports } := by
    rw [State.send_eq, ht]
    rfl
  rw [hrest, hports, hr]
  unfold State.ended
  by_cases ha : n = f.reported ∧ f.reported < 65535
  · simp [ha.1, ha.2]
  · have : (Decidable.decide (n = f.reported) && Decidable.decide (f.reported < 65535)) = false := by
      rw [← Bool.decide_and, decide_eq_false ha]
    simp [ha, this]

/-- R63, R42: all that the end of a feed does at an ENDING feed, and at any other nothing. -/
theorem State.completeEnd_eq {s : State} {p : PortId} {f : Feed} {r : DepositRecord}
    (hf : (s.port p).state = .feeding f) (hr : s.record? f.slot = some r) :
    s.completeEnd p = s.endedIfDrained p f r := by
  unfold State.completeEnd State.endedIfDrained
  rw [State.feed?_eq_some.2 hf]
  dsimp only
  cases hn : f.state with
  | active => rfl
  | suspended => rfl
  | jammed => rfl
  | ending n =>
    dsimp only
    split
    swap
    · rfl
    have hlim : (n = f.reported ∧ (!atLimit f.reported) = true) ↔ n = f.reported ∧ f.reported < 65535 := by
      simp [atLimit, Config.countLimit]
    by_cases ha : n = f.reported ∧ f.reported < 65535
    · rw [if_pos (hlim.2 ha), State.depart_none hr]
      refine State.ended_of hf ?_ rfl rfl fun x _ => by simp [ha, State.port, State.setRecord]
      rw [if_pos ha]
      unfold DepositRecord.startIdle
      simp only [DepositRecord.feedingEmpty_iff]
    · rw [if_neg (fun h => ha (hlim.1 h)), State.depart_some hr, State.holdRecord_eq (State.record?_setRecord_self _ _ _)]
      refine State.ended_of (r' := ({ r with feeding := r.feeding.set p.val false } : DepositRecord).afterHold
        fun h => h.add .feedMismatch) hf ?_ (by simp only [State.setRecord_setRecord]) ?_ fun x hx => ?_
      · rw [if_neg ha]
        rfl
      · simp [State.port, State.setRecord]
      · have : (r.feeding.set p.val false)[x.val] = r.feeding[x.val] :=
          Vector.getElem_set_ne _ _ fun h => hx (Fin.ext h.symm)
        simp only [State.port, Vector.getElem_ofFn, ha, not_false_eq_true, true_and, Bool.and_eq_true, this,
          State.setRecord]

/-- R102, R104: a stray note marks its pocket, and at P0 or P1 the pocket-full condition is tested. -/
theorem State.stray_eq (s : State) (p : PortId) (k : Pocket) :
    s.stray p k = if (placeOf p k).isSome then s.strayMarked p k else (s.strayMarked p k).retestPocketFull true p := by
  unfold State.stray State.strayMarked
  cases hk : placeOf p k with
  | some pl =>
    dsimp only
    cases s.binding pl <;> rfl
  | none =>
    have hk' : k = 0 ∨ k = 1 := placeOf_eq_none.1 hk
    rcases hk' with rfl | rfl <;> rfl

end Sys2Proof.Machine
end

