-- ==== Sys2Proof/Laws/Requests.lean ====
section
/-! SUPPORT. What the link does around a request's own rule (R169 to R171). -/

namespace Sys2Proof.Machine

theorem State.executes_iff {s : State} {code : Byte} {body : List Byte} :
    s.executes code body = true ↔
      s.running = true ∧ s.link = .executing { code := code, body := body } s.overrun := by
  unfold State.executes State.overrun
  cases s.link <;> simp

/-- R170, R171: a request at its own event is its rule, with the response held. -/
theorem execRequest_of_executes {s : State} {code : Byte} {body : List Byte} (h : s.executes code body = true)
    (rule : RequestRule) :
    execRequest code rule body s =
      .next (s.replies (rule body s).1 (rule body s).2.code (rule body s).2.body) := by
  obtain ⟨hr, hl⟩ := State.executes_iff.1 h
  simp [execRequest, State.whenRunning, hr, State.request, hl, State.carryOut, State.replies]

/-- The answer of a request that is refused. -/
theorem execRequest_refused {s : State} {code : Byte} {body : List Byte} (h : s.executes code body = true)
    {rule : RequestRule} {why : CompletionCode} (hr : rule body s = refuse s why) :
    execRequest code rule body s = .next (s.replies s why []) := by
  rw [execRequest_of_executes h, hr]
  rfl

/-- The answer of a request that is carried out. -/
theorem execRequest_accepted {s u : State} {code : Byte} {body answer : List Byte}
    (h : s.executes code body = true) {rule : RequestRule} (hr : rule body s = accept u answer) :
    execRequest code rule body s = .next (s.replies u .ok answer) := by
  rw [execRequest_of_executes h, hr]
  rfl

/-- R159: a part that does not run takes no event. -/
theorem State.whenRunning_of_not {s : State} (h : s.running = false) (event : State → State) :
    s.whenRunning event = s := by
  simp [State.whenRunning, h]

theorem State.whenRunning_of {s : State} (h : s.running = true) (event : State → State) :
    s.whenRunning event = event s := by
  simp [State.whenRunning, h]

/-- R170: the frame of a request that fits is handed over. -/
theorem State.takeFrame_handsOver {s : State} {code : Byte} {body : List Byte} (hk : knownCode code = true)
    (hb : body.length ≤ 250) (hl : ∀ r o, s.link ≠ .executing r o) :
    s.takeFrame (requestBytes code body) =
      { s with
        shifted := List.replicate (body.length + 2) 0xFF
        link := .executing { code := code, body := body } false } := by
  have hc : code ≠ 0 := by
    rintro rfl
    simp [knownCode] at hk
  have hn : (natByte body.length).toNat = body.length := by
    rw [natByte, BitVec.toNat_ofNat]
    omega
  have hj : judgeFrame code (natByte body.length :: body) =
      .executing { code := code, body := body } false := by
    simp only [judgeFrame, hk, hn, Config.bodyLimit, hb, Bool.not_true, Bool.false_eq_true, if_false, and_self, if_true]
  simp only [State.takeFrame, requestBytes, hc, if_false, hj, List.length_cons]
  cases h : s.link with
  | executing r o => exact absurd h (hl r o)
  | idle => rfl
  | holding r o => rfl

/-- Log 2: a request command in IDLE or HOLDING is its frame, then its event. -/
theorem State.request_of_free {s : State} {code : Byte} {body : List Byte} (hk : knownCode code = true)
    (hb : body.length ≤ 250) (hl : ∀ r o, s.link ≠ .executing r o) (rule : RequestRule) :
    s.request code rule body =
      (s.takeFrame (requestBytes code body)).carryOut rule { code := code, body := body } false := by
  have ht := State.takeFrame_handsOver (s := s) hk hb hl
  unfold State.request
  cases h : s.link with
  | executing r o => exact absurd h (hl r o)
  | idle => simp only [ht]
  | holding r o => simp only [ht]

end Sys2Proof.Machine
end

