-- ==== Sys2Proof/Laws/Store.lean ====
section
/-! SUPPORT. The configuration check word of the defaults (R12, R17), worked out in pieces that the kernel can
evaluate. -/

namespace Sys2Proof.Machine

/-- A fold, taken up after its first `n` elements. -/
theorem foldl_after {α β : Type} {f : β → α → β} {r v : β} (n : Nat) {l : List α} (h : (l.take n).foldl f r = v) :
    l.foldl f r = (l.drop n).foldl f v := by
  rw [← h, ← List.foldl_append, List.take_append_drop]

/-- R12, R17: the check word of the defaults. -/
theorem crc_initial : crc Configuration.initial.image = 0x2523#16 := by
  unfold crc
  rw [foldl_after 50 (v := 11258#16) (by decide +kernel), foldl_after 50 (v := 58563#16) (by decide +kernel),
    foldl_after 50 (v := 44583#16) (by decide +kernel), foldl_after 50 (v := 13513#16) (by decide +kernel),
    foldl_after 50 (v := 61371#16) (by decide +kernel), foldl_after 50 (v := 60383#16) (by decide +kernel),
    foldl_after 50 (v := 19369#16) (by decide +kernel), foldl_after 50 (v := 63124#16) (by decide +kernel)]
  decide +kernel

end Sys2Proof.Machine
end

