-- ==== Sys2Proof/Tests/Slice0.lean ====
section
/-! SUPPORT. Small tests, each of one step, with results from the manual's rules and worked examples; and for each
statement with hypotheses a state and operands that meet them. -/

namespace Sys2Proof.Tests

open Sys2Proof Sys2Proof.Machine

-- One test at a time: each evaluation takes a thread of its own otherwise.
set_option Elab.async false

/-! ### States of the tests -/

/-- An entry of the face value and strap size given, with both dispositions SORT and COMBINE clear. -/
def entry (face : BitVec 32) (strap : Byte) : DenomEntry :=
  { face := face, strap := strap, fitDisposition := 0, unfitDisposition := 0, combine := 0 }

/-- Set 0 as in 4.10; set 1 with index 2 combined and strapped in 50s (1.8). -/
def cfg : Configuration :=
  (((((Configuration.initial.setEntry 0 0 { entry 500 100 with unfitDisposition := 1 }).setEntry 0 1
    (entry 1000 100)).setEntry 0 2 (entry 2000 100)).setEntry 0 3 (entry 5000 100)).setEntry 0 4
    (entry 10000 100)).setEntry 1 2 { entry 2000 50 with combine := 1 }

/-- A running part with that store, no record and no bundle, and every port READY. -/
def hall : State :=
  { State.reset with config := cfg, checkWord := crc cfg.image, ports := Vector.replicate 4 { state := .ready } }

/-- A record of set 0 with no note, POOLED, with a declared total of 50,000 (2.10). -/
def deposit (ref : Reference) (st : RecordState) : DepositRecord :=
  { reference := ref, customer := 0x00112A, currency := 0, custody := .pooled, state := st
    declaredTotal := 50000, breakdown := [], cells := Vector.replicate 12 {}
    unrecognized := 0, returned := 0, lost := 0, collected := 0, voided := 0
    feeding := Vector.replicate 4 false, pending := 0, reopens := 0, holds := {}, flags := {}
    result := none, idleSince := none }

/-- A settlement result of no notes. -/
def verdict : Settlement :=
  { outcome := .exact, counted := 0, suspect := 0, difference := 0, suspectMark := false, mismatches := none }

/-- The hall with a record of reference 5 in slot 5. -/
def withDeposit (r : DepositRecord) : State :=
  hall.setRecord 5 (some r)

/-- The feeding set of one transport. -/
def fedBy (p : PortId) : Vector Bool 4 :=
  (Vector.replicate 4 false).set p.val true

/-- A feed on slot 5, new but for its state. -/
def feed (st : FeedState) : Feed :=
  { Feed.opened 5 5 false with state := st }

/-- An entry of slot 5, index 1, FIT. -/
def note (seq : Byte) (k : Pocket) : Entry :=
  { seq := seq, pocket := k, slot := some 5, index := some 1, fitness := .fit, deadline := 600 }

/-- An unattributed entry for P0. -/
def loose (seq : Byte) : Entry :=
  { seq := seq, pocket := 0, slot := none, index := none, fitness := .fit, deadline := 600 }

/-- Slot 5 COUNTING, fed by TP1, whose feed and window are the ones given. -/
def feeding (f : Feed) (w : List Entry) : State :=
  (withDeposit { deposit 5 .counting with
      feeding := fedBy 1, pending := (w.filter fun e => 2 ≤ e.pocket.val).length }).setPort 1
    { state := .feeding f, window := w
      p0 := { inFlight := (w.filter fun e => e.pocket = 0).length }
      p1 := { inFlight := (w.filter fun e => e.pocket = 1).length } }

/-- TP1's sort pocket P2. -/
def tp1p2 : Place := 6

/-- The pooled bundle of index 1, FIT, set 0, at a pocket. -/
def bundle (pl : Place) (st : BundleState) (stacked inFlight : Nat) (l : List Contribution) : Bundle :=
  { key := { currency := 0, index := 1, fitness := .fit, group := .pool }
    place := pl, strap := 100, stacked := stacked, inFlight := inFlight, contributions := l
    short := false, tainted := false, state := st, number := none }

def share (i : Slot) (fit reserved : Nat) : Contribution :=
  { slot := i, reference := BitVec.ofNat 32 i.val, fit := fit, unfit := 0, reserved := reserved }

/-- A COLLECTABLE bundle of 20 notes of slot 5. -/
def strapped : Bundle :=
  { bundle tp1p2 .collectable 20 0 [share 5 20 0] with number := some 7 }

/-- The state in which a request's own event is next. -/
def asked (code : Byte) (body : List Byte) (s : State) : State :=
  { s with link := .executing { code := code, body := body } false }

/-- The state after a command. -/
def after (c : Instr) (s : State) : State :=
  match exec c s with
  | .next t => t
  | .fault _ | .refused _ => s

/-- What the link holds. -/
def answer (s : State) : Option Reply :=
  match s.link with
  | .holding r _ => some r
  | .idle | .executing _ _ => none

/-- The completion code of a request sent to an idle link. -/
def codeOf (c : Instr) (s : State) : Option CompletionCode :=
  (answer (after c s)).map fun r => r.code

/-! ### Premises that speak of every record or bundle, from tests that the kernel can make -/

theorem named_of {s : State} {ref : Reference} {i : Slot} {r : DepositRecord}
    (h : (s.record? i = some r ∧ r.reference = ref ∧ ref ≠ 0) ∧
      ∀ j : Slot, j ≠ i → (s.record? j).map (fun r => r.reference) ≠ some ref) : s.Named ref i r := by
  refine ⟨h.1.1, h.1.2.1, h.1.2.2, fun j r' hj hr => ?_⟩
  by_contra hne
  exact h.2 j hne (by rw [hj, ← hr]; rfl)

theorem unnamed_of {s : State} {ref : Reference}
    (h : ∀ j : Slot, (s.record? j).map (fun r => r.reference) ≠ some ref) : s.Unnamed ref :=
  fun i r hr he => h i (by rw [hr, ← he]; rfl)

theorem lostInRange_of {s : State} (h : ∀ j : Slot, ((s.record? j).all fun r => r.lost ≤ 65535) = true) :
    s.LostInRange := fun i r hr => by
  have := h i
  rw [hr] at this
  simpa using this

/-! ### WellFormed refuses what no row describes -/

theorem test_wellFormed_long_body : (Instr.declare (List.replicate 251 0)).wellFormed = false := by decide +kernel
theorem test_wellFormed_empty_poll : (Instr.poll 0).wellFormed = false := by decide +kernel
theorem test_wellFormed_empty_frame : (Instr.requestFrame []).wellFormed = false := by decide +kernel
theorem test_wellFormed_poll_as_frame : (Instr.requestFrame [0, 1]).wellFormed = false := by decide +kernel
theorem test_wellFormed_note_index : (Instr.noteReport 0 0 12 0 0).wellFormed = false := by decide +kernel
theorem test_wellFormed_note_fitness : (Instr.noteReport 0 0 1 2 0).wellFormed = false := by decide +kernel
theorem test_wellFormed_note_verdict : (Instr.noteReport 0 0 1 0 3).wellFormed = false := by decide +kernel
theorem test_wellFormed_stacked : (Instr.stacked 0 0 8).wellFormed = false := by decide +kernel
theorem test_wellFormed_cleared : (Instr.pocketCleared 0 8).wellFormed = false := by decide +kernel
theorem test_wellFormed_good_message : (Instr.discardedMessage 0 0x14 [] false).wellFormed = false := by decide +kernel
theorem test_wellFormed_long_message : (Instr.discardedMessage 0 0x30 (List.replicate 256 0) true).wellFormed = false := by
  decide +kernel

/-! ### The check word and reset -/

/-- R12: "the nine bytes 0x31 to 0x39 give 0x29B1". -/
theorem test_crc : crc [0x31, 0x32, 0x33, 0x34, 0x35, 0x36, 0x37, 0x38, 0x39] = 0x29B1 := by decide +kernel

theorem test_initial_checkWord : State.reset.checkWord = crc State.reset.config.image := crc_initial.symm

/-- R17, 8.5: a factory-new part with its cause flags clear, as it is before its first supply. -/
def factoryNew : State :=
  { State.reset with powered := false, causes := {}, effective := 0, pace := 0 }

/-- R13: the factory-new part's configuration is found good. -/
theorem test_factory_store_is_good (s : State) (hc : s.config = Configuration.initial) (hw : s.checkWord = 0x2523#16)
    (hf : s.configFault = false) : s.checkConfiguration = s := by
  have e : s.config.computedWord = s.checkWord := by rw [hc, hw]; exact crc_initial
  have hr : Configuration.initial.inRange = true := by decide +kernel
  have hb : (!(decide (s.config.computedWord = s.checkWord) && s.config.inRange)) = s.configFault := by
    rw [e, hc, hr, hf]
    simp
  unfold State.checkConfiguration
  rw [hb]

/-- R160: reset is the factory-new part after its first start-up. -/
theorem test_reset_is_started : after (.startUp .powerUp) factoryNew = State.reset := by
  let u : State := { (factoryNew.setCause .powerUp).discardVolatile with powered := true, resetLine := false }
  have h : after (.startUp .powerUp) factoryNew =
      if u.checkConfiguration.recoverTables.startGovernor.warning then
        u.checkConfiguration.recoverTables.startGovernor.takeAssertion
      else u.checkConfiguration.recoverTables.startGovernor := rfl
  rw [h, test_factory_store_is_good u rfl rfl rfl]
  decide +kernel

/-! ### Requests on records -/

/-- The Declare of 2.10, step 1. -/
def bag : Declaration :=
  { reference := 3180004, customer := 0x00112A, currency := 0, custody := 1, total := 50000, breakdown := [] }

/-- 2.10 step 1: "Declare; completes OK with slot 0", DECLARED. -/
theorem test_declare : answer (after (.declare bag.body) hall) = some { code := .ok, body := [0] } ∧
    (after (.declare bag.body) hall).record? 0 = some (deposit 3180004 .declared) := by decide +kernel

/-- R31: 13 x 500 is not 50,000. -/
theorem test_declare_total :
    codeOf (.declare ({ bag with breakdown := [{ index := 0, count := 13 }] } : Declaration).body) hall =
      some .breakdownTotal := by decide +kernel

/-- 2.11 step 4: an Amend of a settled record removes the result. -/
theorem test_amend :
    let s := withDeposit { deposit 5 .discrepant with result := some verdict, returned := 1, reopens := 2 }
    let t := after (.amend ({ reference := 5, total := 30000, breakdown := [] } : Amendment).body) s
    t.record? 5 = some { deposit 5 .counting with
      declaredTotal := 30000, returned := 1, reopens := 2, idleSince := some 0 } := by decide +kernel

theorem test_cancel : (after (.cancel (referenceBody 5)) (withDeposit (deposit 5 .declared))).record? 5 = none := by
  decide +kernel

theorem test_cancel_counting :
    codeOf (.cancel (referenceBody 5)) (withDeposit (deposit 5 .counting)) = some .wrongState := by decide +kernel

/-- R34: a FREE slot answers its number and state 0. -/
theorem test_lookUp_free : answer (after (.lookUp [1, 0, 0, 0, 127]) hall) = some { code := .ok, body := [127, 0] } := by
  decide +kernel

theorem test_list : answer (after (.list [0, 0]) (withDeposit (deposit 5 .declared))) =
    some { code := .ok, body := [1, 0xFF, 5, 0, 0, 0, 5, 1] } := by decide +kernel

/-- 2.10 step 9: 20 x 1,000 and 15 x 2,000 are the declared total: EXACT with the suspect mark, BALANCED. -/
theorem test_settle :
    let r := { deposit 5 .counting with
      cells := (((Vector.replicate 12 ({} : TallyCell)).set 1 { fit := 20 }).set 2 { fit := 14, unfit := 1 }).set 3
        { suspect := 1 } }
    ((after (.settle (referenceBody 5)) (withDeposit r)).record? 5).map (fun r => (r.state, r.result)) =
      some (.balanced, some { outcome := .exact, counted := 50000, suspect := 5000, difference := 0
                              suspectMark := true, mismatches := none }) := by decide +kernel

/-- The record of 7.10. -/
def shortBag : DepositRecord :=
  { deposit 21 .counting with
    declaredTotal := 126500
    breakdown := [⟨0, 13⟩, ⟨1, 20⟩, ⟨2, 30⟩, ⟨3, 8⟩]
    cells := ((((Vector.replicate 12 ({} : TallyCell)).set 0 { fit := 12, unfit := 1 }).set 1
      { fit := 18, unfit := 1 }).set 2 { fit := 31 }).set 3 { fit := 7, suspect := 1 } }

def faces (i : DenomIndex) : Nat :=
  (cfg.entry 0 i).face.toNat

/-- 7.10: SHORT, with the mismatch list (1, -1), (2, +1), (3, -1). -/
theorem test_settlement_short : shortBag.settlement faces =
    { outcome := .short, counted := 122500, suspect := 5000, difference := -4000, suspectMark := true
      mismatches := some [⟨1, -1⟩, ⟨2, 1⟩, ⟨3, -1⟩] } := by decide +kernel

/-- 7.10, the variant: SHORT_BY_SUSPECT, with the mismatch list (3, -1) alone. -/
theorem test_settlement_by_suspect :
    ({ shortBag with
      cells := (shortBag.cells.set 1 { fit := 19, unfit := 1 }).set 2 { fit := 30 } } : DepositRecord).settlement faces =
    { outcome := .shortBySuspect, counted := 121500, suspect := 5000, difference := -5000, suspectMark := true
      mismatches := some [⟨3, -1⟩] } := by decide +kernel

/-- 7.11 case 3: the values agree and the counts do not. -/
theorem test_settlement_mixed :
    ({ deposit 5 .counting with
      declaredTotal := 2000, breakdown := [⟨1, 2⟩]
      cells := (Vector.replicate 12 ({} : TallyCell)).set 0 { fit := 4 } } : DepositRecord).settlement faces =
    { outcome := .mixed, counted := 2000, suspect := 0, difference := 0, suspectMark := false
      mismatches := some [⟨0, 4⟩, ⟨1, -2⟩] } := by decide +kernel

/-- 7.11 case 7: every banded cell at 65,535 and every face value the largest. -/
theorem test_settlement_largest :
    ({ deposit 5 .counting with
      declaredTotal := 2 ^ 48 - 1
      cells := Vector.replicate 12 { fit := 65535, unfit := 65535 } } : DepositRecord).settlement (fun _ => 100000000) =
    { outcome := .short, counted := 157284000000000, suspect := 0, difference := -124190976710655
      suspectMark := false, mismatches := none } := by decide +kernel

/-- 2.10 step 4: HELD with HOST, and Stop with HOLD to the feed. -/
theorem test_hold :
    let t := after (.hold (referenceBody 5)) (feeding (feed .active) [])
    (t.record? 5).map (fun r => (r.state, r.holds)) = some (.held, { host := true }) ∧
    (t.port 1).out = [.stop { hold := true } false] ∧ answer t = some { code := .ok, body := [5, 1] } := by
  decide +kernel

/-- R38: a SEALED record is not held. -/
theorem test_hold_sealed : codeOf (.hold (referenceBody 5)) (withDeposit (deposit 5 .sealed)) = some .sealed := by
  decide +kernel

/-- 2.10 step 6: COUNTING again, and Resume. -/
theorem test_release :
    let s := (feeding { feed .suspended with stop := { hold := true } } []).setRecord 5
      (some { deposit 5 .held with feeding := fedBy 1, holds := { host := true } })
    let t := after (.release (referenceBody 5)) s
    (t.record? 5).map (fun r => (r.state, r.holds)) = some (.counting, {}) ∧ (t.port 1).out = [.resume] := by
  decide +kernel

/-- 2.10 step 10. -/
theorem test_seal :
    ((after (.sealRecord (SealFields.body { reference := 5, accept := 0 }))
      (withDeposit { deposit 5 .balanced with result := some verdict })).record? 5).map (fun r => r.state) =
      some .sealed := by decide +kernel

/-- 2.10 steps 11 and 13. -/
theorem test_retire :
    let r := { deposit 5 .sealed with cells := (Vector.replicate 12 ({} : TallyCell)).set 1 { fit := 35 } }
    codeOf (.retire (referenceBody 5)) (withDeposit r) = some .inBundle ∧
    (after (.retire (referenceBody 5)) (withDeposit { r with collected := 29, voided := 6 })).record? 5 = none := by
  decide +kernel

/-! ### Requests on bundles -/

/-- 6.9 step 8: the head is handed over and the waiting bundle takes its place. -/
theorem test_takeBundle :
    let s := { (withDeposit (deposit 5 .counting)).setBinding 0 (.bound (bundle 0 .completeWaiting 20 0 [])) with
      queue := List.replicate 16 (.lifted strapped), waiting := [0], nextNumber := 0xA12 }
    let t := after (.takeBundle []) s
    (t.record? 5).map (fun r => r.collected) = some 20 ∧ t.queue.getLast? = some (.inPocket 0) ∧ t.waiting = [] ∧
    (t.port 0).out = [.strapOrder 2 0xA12] := by decide +kernel

/-- 6.9 step 7. -/
theorem test_takeBundle_notReady :
    codeOf (.takeBundle []) { hall.setBinding 0 (.bound { bundle 0 .strapping 20 0 [] with number := some 1 }) with
      queue := [.inPocket 0] } = some .notReady := by decide +kernel

/-- R132: state 5, no prior state, one bundle queued and none waiting stand after the image. -/
theorem test_lookBundle :
    ((answer (after (.lookBundle []) { hall with queue := [.lifted strapped] })).map fun r =>
      (r.body.take 4, r.body.drop 70)) = some ([0, 0, 0, 7], [5, 0xFF, 1, 0]) := by decide +kernel

/-- 6.9 step 4: an OPEN pooled bundle with nothing in flight closes short and enters the queue. -/
theorem test_flushPooled :
    let s := { hall.setBinding 18 (.bound (bundle 18 .opened 19 0 [share 31 9 0, share 30 10 0])) with
      queue := List.replicate 14 (.lifted strapped), nextNumber := 0xA10, effective := 14, pace := 100 }
    let t := after (.flushPooled [0]) s
    t.bundle? 18 = some { bundle 18 .strapping 19 0 [share 31 9 0, share 30 10 0] with
      short := true, number := some 0xA10 } ∧
    (t.effective, t.pace) = (15, 50) ∧ (t.port 3).out = [.strapOrder 2 0xA10, .pace 50] ∧
    answer t = some { code := .ok, body := [1, 1] } := by decide +kernel

/-! ### Requests on the configuration -/

/-- 1.8 step 1. -/
theorem test_setDenomination_inUse :
    codeOf (.setDenomination (DenominationFields.body { currency := 0, index := 2, entry := entry 2000 50 }))
      (withDeposit (deposit 5 .counting)) = some .inUse := by decide +kernel

/-- R4: a strap size of 0 is stored as 100. -/
theorem test_setDenomination :
    ((after (.setDenomination (DenominationFields.body { currency := 3, index := 11, entry := entry 7 0 }))
      hall).config.entry 3 11) = entry 7 100 := by decide +kernel

/-- R8: a flight limit that is no multiple of 10. -/
theorem test_setLimits_flight :
    codeOf (.setLimits (Limits.image { Limits.initial with flight := 605 })) hall = some .badField := by decide +kernel

/-- R9: the pocket-full condition is judged with the new threshold at once. -/
theorem test_setLimits :
    let s := (feeding (feed .active) []).modPort 1 fun q => { q with p0 := { fill := 100 } }
    let t := after (.setLimits (Limits.image { Limits.initial with returnStop := 100 })) s
    (t.port 1).out = [.stop { pocketFull := true } false] := by decide +kernel

/-- R10: a point above 1,000 is stored as 1,000. -/
theorem test_setPaceCurve :
    ((after (.setPaceCurve (Curve.image { Curve.initial with points := Vector.replicate 9 1001 }))
      hall).config.curve.points) = Vector.replicate 9 1000 := by decide +kernel

theorem test_readConfiguration :
    ((answer (after (.readConfiguration [0]) hall)).map fun r => (r.body.length, r.body.take 8)) =
      some (96, [0, 0, 1, 0xF4, 100, 0, 1, 0]) := by decide +kernel

/-- R16: a value out of range. -/
theorem test_commitConfiguration :
    codeOf (.commitConfiguration []) { hall with
      configFault := true, config := cfg.setEntry 3 11 (entry 7 9) } = some .badField := by decide +kernel

/-- R17: the defaults, number 1, and CONFIG_FAULT clear. -/
theorem test_initializeStore :
    let t := after (.initializeStore []) { hall with configFault := true, nextNumber := 9 }
    t.config = Configuration.initial ∧ t.nextNumber = 1 ∧ t.configFault = false := by decide +kernel

theorem test_initializeStore_inUse :
    codeOf (.initializeStore []) (withDeposit (deposit 5 .sealed)) = some .inUse := by decide +kernel

/-! ### Requests on the part -/

/-- R175: causes 1, no fault, then the four ports READY, and pace 1,000 before no HELD record. -/
theorem test_readStatus :
    ((answer (after (.readStatus []) hall)).map fun r =>
      (r.body.length, r.body.take 2, (r.body.drop 9).take 1, r.body.drop 125)) =
      some (130, [1, 0], [1], [0, 0, 3, 0xE8, 0]) := by decide +kernel

theorem test_clearCauses :
    let t := after (.clearCauses [1]) { hall with causes := { powerUp := true, powerWarning := true } }
    t.causes = { powerWarning := true } ∧ answer t = some { code := .ok, body := [4] } := by decide +kernel

/-- 3.12 step 9. -/
theorem test_releaseTransport :
    let t := after (.releaseTransport [0]) (hall.setPort 0 { state := .locked .referenceAttempts, refused := 5 })
    t.port 0 = { state := .ready } ∧ answer t = some { code := .ok, body := [1] } := by decide +kernel

theorem test_releaseTransport_down :
    codeOf (.releaseTransport [2]) State.reset = some .wrongState := by decide +kernel

/-! ### Link frames -/

/-- 9.9 step 4: READY, OK, BUSY_OVERRUN, the length and the body. -/
theorem test_poll :
    (after (.poll 8) { hall with link := .holding { code := .ok, body := [4, 1] } true }).shifted =
      [0xFF, 0x02, 0x00, 0x01, 2, 4, 1, 0xFF] := by decide +kernel

/-- 9.9 step 2: a frame in EXECUTING is discarded, and the overrun recorded. -/
theorem test_requestFrame_overrun :
    (after (.requestFrame [0x14, 0]) (asked 0x06 (referenceBody 0xF3A1) hall)).link =
      .executing { code := 0x06, body := referenceBody 0xF3A1 } true := by decide +kernel

theorem test_requestFrame_unknown :
    answer (after (.requestFrame [0x17, 0]) hall) = some { code := .unknownRequest, body := [] } := by decide +kernel

/-! ### Transport messages -/

/-- 8.8 step 1: the empty pocket of an UNCONFIRMED bundle (prior STRAPPING) was lifted; P0 is occupied. -/
theorem test_hello :
    let s := { State.reset.setBinding tp1p2 (.bound { bundle tp1p2 (.unconfirmed .strapping) 7 0 [] with
        number := some 5 }) with
      queue := [.inPocket tp1p2], effective := 1 }
    let t := after (.hello 1 0x01) s
    t.queue = [.lifted { bundle tp1p2 .collectable 7 0 [] with number := some 5 }] ∧
    t.binding tp1p2 = .unbound ∧
    t.port 1 = { state := .ready, p0 := { mark := true }, out := [.helloAnswer 1000] } := by decide +kernel

/-- 8.8 step 2: the empty pocket of a prior OPEN bundle is a voiding; P6 is BLOCKED. -/
theorem test_hello_voids :
    let s := (({ State.reset with config := cfg } : State).setRecord 3 (some { deposit 3 .held with
        holds := { power := true } })).setBinding 2 (.bound (bundle 2 (.unconfirmed .opened) 26 0 [share 3 26 0]))
    let t := after (.hello 0 0x40) s
    t.record? 3 = some { deposit 3 .held with
      holds := { power := true, custody := true }, voided := 26, flags := { voidedNotes := true } } ∧
    t.binding 2 = .unbound ∧ t.binding 4 = .blocked := by decide +kernel

/-- 3.11 step 1: P0's mark makes the feed SUSPENDED, and Stop follows Feed Accept. -/
theorem test_feedStart :
    let s := (withDeposit (deposit 5 .declared)).setPort 2 { state := .ready, p0 := { mark := true } }
    let t := after (.feedStart 2 5) s
    (t.record? 5).map (fun r => (r.state, r.members)) = some (.counting, [2]) ∧
    (t.feed? 2).map (fun f => f.state) = some .suspended ∧
    (t.port 2).out = [.feedAccept 5 0, .stop { pocketFull := true } false] := by decide +kernel

/-- 2.11 step 7: the fourth reopen is refused, and the record is HELD. -/
theorem test_feedStart_reopens :
    let s := withDeposit { deposit 5 .balanced with reopens := 3, result := some verdict }
    let t := after (.feedStart 0 5) s
    t.record? 5 = some { deposit 5 .held with reopens := 3, holds := { reopenLimit := true } } ∧
    (t.port 0).out = [.feedRefuse .reopenLimit] := by decide +kernel

/-- 4.10, sequence 42: the note fills P2. -/
theorem test_noteReport_fills :
    let s := (feeding { feed .active with expected := 42 } [note 40 2, note 41 2]).setBinding tp1p2
      (.bound (bundle tp1p2 .opened 97 2 [share 3 60 0, share 5 37 2]))
    let t := after (.noteReport 1 42 1 0 0) s
    t.bundle? tp1p2 = some (bundle tp1p2 .filled 97 3 [share 3 60 0, share 5 37 3]) ∧
    (t.record? 5).map (fun r => r.pending) = some 3 ∧ (t.port 1).out = [.pocketOrder 42 2] := by decide +kernel

/-- 4.10, sequence 47: index 0 UNFIT is RETURN; 298 and 2 reach the threshold of 300. -/
theorem test_noteReport_return :
    let s := (feeding { feed .active with expected := 47 } []).modPort 1 fun q =>
      { q with p0 := { fill := 298, inFlight := 1 } }
    let t := after (.noteReport 1 47 0 1 0) s
    (t.port 1).out = [.pocketOrder 47 0, .stop { pocketFull := true } false] ∧
    (t.feed? 1).map (fun f => (f.state, f.expected, f.reported)) = some (.suspended, 48, 1) := by decide +kernel

/-- 5.9 step 1: the confirmation of the first of four entries for a FILLED bundle. -/
theorem test_stacked :
    let s := (feeding { feed .active with jams := 1, sinceJam := 37 } [note 20 2, note 21 2]).setBinding tp1p2
      (.bound (bundle tp1p2 .filled 96 4 [share 6 50 0, share 5 46 4]))
    let t := after (.stacked 1 20 2) s
    t.bundle? tp1p2 = some (bundle tp1p2 .filled 97 3 [share 6 50 0, share 5 47 3]) ∧
    (t.record? 5).map (fun r => (r.cells[1], r.pending)) = some ({ fit := 1 }, 1) ∧
    (t.feed? 1).map (fun f => (f.banded, f.sinceJam)) = some (1, 38) := by decide +kernel

/-- 5.9 step 2: a misroute loses the window, and the other pocket's bundle is TAINTED. -/
theorem test_stacked_misroute :
    let s := ((feeding { feed .active with jams := 1 } [note 21 2, note 24 0]).setBinding tp1p2
      (.bound (bundle tp1p2 .filled 99 1 [share 5 99 1]))).setBinding 8 (.bound (bundle 8 .opened 1 0 [share 5 1 0]))
    let t := after (.stacked 1 21 4) s
    (t.bundle? tp1p2).map (fun b => (b.state, b.inFlight)) = some (.opened, 0) ∧
    (t.bundle? 8).map (fun b => b.tainted) = some true ∧ (t.record? 5).map (fun r => r.lost) = some 2 ∧
    (t.port 1).out = [.stop {} true] := by decide +kernel

/-- R109: the transport's own jam is answered by no Stop. -/
theorem test_jam :
    let t := after (.jam 1) (feeding (feed .active) [note 0 0])
    (t.feed? 1).map (fun f => (f.state, f.jams, f.lost)) = some (.jammed, 1, 1) ∧ (t.port 1).out = [] := by
  decide +kernel

/-- R65, R110: the third jam aborts the feed; the second such feed locks the port. -/
theorem test_jam_limit :
    let s := (feeding { feed .active with jams := 2 } []).modPort 1 fun q => { q with aborted := 1 }
    let t := after (.jam 1) s
    (t.port 1).state = .locked .abortedFeeds ∧ (t.port 1).out = [.endRefused .aborted] ∧
    (t.record? 5).map (fun r => (r.state, r.holds, r.members)) = some (.held, { jamLimit := true }, []) := by
  decide +kernel

/-- 5.10, the end: the stop set holds HOLD, so the feed becomes SUSPENDED with Stop. -/
theorem test_jamCleared :
    let t := after (.jamCleared 1) (feeding { feed .jammed with stop := { hold := true }, jams := 1, expected := 9 } [])
    (t.feed? 1).map (fun f => (f.state, f.expected, f.jams)) = some (.suspended, 0, 1) ∧
    (t.port 1).out = [.stop { hold := true } false] := by decide +kernel

/-- 3.11 step 6: the counts disagree, and the record is held with FEED_MISMATCH. -/
theorem test_feedEnd :
    let t := after (.feedEnd 1 13) (feeding { feed .active with reported := 12, banded := 10, returned := 2 } [])
    (t.record? 5).map (fun r => (r.state, r.holds, r.members)) = some (.held, { feedMismatch := true }, []) ∧
    (t.port 1).out = [.endDone 12 10 0 2 0] ∧ (t.port 1).state = .ready := by decide +kernel

/-- 2.10 step 8: the counts agree, and the idle timer starts. -/
theorem test_feedEnd_agrees :
    let t := after (.feedEnd 1 38) (feeding { feed .active with reported := 38 } [])
    t.record? 5 = some { deposit 5 .counting with idleSince := some 0 } := by decide +kernel

/-- 3.11 step 2: P0 is emptied, and Resume. -/
theorem test_pocketCleared :
    let s := (feeding { feed .suspended with stop := { pocketFull := true } } []).modPort 1 fun q =>
      { q with p0 := { mark := true } }
    (after (.pocketCleared 1 0) s).port 1 =
      { state := .feeding (feed .active), out := [.resume] } := by decide +kernel

/-- 5.10: a pulled stack loses the window, is voided, and holds its records; the seal of slot 3 stays. -/
theorem test_pocketCleared_pulled :
    let s := ((feeding (feed .active) [note 0 2, note 1 1]).setRecord 3 (some (deposit 3 .sealed))).setBinding tp1p2
      (.bound (bundle tp1p2 .opened 27 1 [share 3 12 0, share 5 15 1]))
    let t := after (.pocketCleared 1 2) s
    t.binding tp1p2 = .unbound ∧
    (t.record? 3).map (fun r => (r.state, r.voided)) = some (.sealed, 12) ∧
    (t.record? 5).map (fun r => (r.state, r.voided, r.lost, r.holds)) = some (.held, 15, 2, { custody := true }) ∧
    (t.port 1).out = [.stop {} true] := by decide +kernel

/-- R49: a body of the wrong length is a jam with cause PROTOCOL. -/
theorem test_discardedMessage :
    (after (.discardedMessage 1 0x14 [0] false) (feeding (feed .active) [])).port 1 =
      { state := .feeding { feed .jammed with jams := 1 }, out := [.stop {} true] } := by decide +kernel

/-! ### Timers, lines and supply -/

/-- 6.9 step 3: the expiry makes the FILLED bundle OPEN and jams the feed. -/
theorem test_flightExpiry :
    let s := (feeding (feed .active) [note 0 2]).setBinding tp1p2 (.bound (bundle tp1p2 .filled 99 1 [share 5 99 1]))
    let t := after (.flightExpiry 1 0) s
    t.bundle? tp1p2 = some (bundle tp1p2 .opened 99 0 [share 5 99 0]) ∧
    (t.feed? 1).map (fun f => f.state) = some .jammed ∧ t.now = 600 := by decide +kernel

/-- R44: 30 minutes after its start. -/
theorem test_idleExpiry :
    let t := after (.idleExpiry 5) (withDeposit { deposit 5 .counting with idleSince := some 10 })
    t.record? 5 = some { deposit 5 .held with holds := { idle := true } } ∧ t.now = 1800010 := by decide +kernel

/-- 8.7 step 1. -/
theorem test_powerWarningAsserted :
    let t := after .powerWarningAsserted (feeding (feed .active) [])
    (t.port 1).out = [.stop { power := true } false] ∧ t.holdUp = some { start := 0, duration := 60 } ∧
    t.causes.powerWarning = true := by decide +kernel

theorem test_powerWarningDeasserted :
    let s := { feeding { feed .suspended with stop := { power := true } } [] with
      warning := true, holdUp := some { start := 0, duration := 60 } }
    let t := after .powerWarningDeasserted s
    (t.port 1).out = [.resume] ∧ t.holdUp = none := by decide +kernel

/-- 8.7 step 4: the windows are lost, the feeds aborted, the CLOSING bundle drained into the queue. -/
theorem test_holdUpExpiry :
    let s := { (feeding { feed .suspended with stop := { power := true } } [note 0 2]).setBinding tp1p2
        (.bound (bundle tp1p2 .closing 7 1 [share 5 7 1])) with
      warning := true, holdUp := some { start := 0, duration := 60 }
      queue := List.replicate 4 (.lifted strapped), effective := 4 }
    let t := after .holdUpExpiry s
    (t.port 1).out = [.strapOrder 2 1, .pace 950, .endRefused .aborted] ∧ (t.port 1).state = .ready ∧
    (t.record? 5).map (fun r => (r.lost, r.pending, r.holds)) = some (1, 0, { power := true }) ∧
    (t.port 2).out = [.pace 950] ∧ (t.effective, t.pace) = (5, 950) := by decide +kernel

/-- R158, R159: the volatile state is lost and the store kept. -/
theorem test_resetLineAsserted :
    let t := after .resetLineAsserted (feeding (feed .active) [note 0 2])
    t.running = false ∧ t.port 1 = {} ∧ (t.record? 5).map (fun r => (r.state, r.pending, r.members)) =
      some (.counting, 0, [1]) := by decide +kernel

theorem test_powerFailure :
    let t := after .powerFailure { hall with nextNumber := 9 }
    t.powered = false ∧ t.nextNumber = 9 ∧ t.port 0 = {} := by decide +kernel

/-- R48: a record of the feeding set comes back HELD with POWER. -/
theorem test_startUp_record : (DepositRecord.recover { deposit 5 .counting with feeding := fedBy 1, pending := 2 } 0) =
    { deposit 5 .held with holds := { power := true } } := by decide +kernel

/-- R139: an OPEN bundle with a stacked note comes back UNCONFIRMED without its reservations. -/
theorem test_startUp_bundle : (bundle 0 .opened 41 1 [share 3 26 1, share 7 0 0]).recover =
    .bound (bundle 0 (.unconfirmed .opened) 41 0 [share 3 26 0]) := by decide +kernel

/-! ## Premises that can be met: for each statement, clause by clause, a state and operands -/

theorem notExecuting_of_idle {s : State} (h : s.link = .idle) (r : Request) (o : Bool) : s.link ≠ .executing r o := by
  rw [h]
  exact fun e => by cases e

theorem notFeeding_of {q : Port} (h : q.feed? = none) (f : Feed) : q.state ≠ .feeding f := fun e => by
  simp [Port.feed?, e] at h

theorem notBound_of {s : State} {pl : Place} (h : s.bundle? pl = none) (b : Bundle) : s.binding pl ≠ .bound b :=
  State.bundle?_eq_none.1 h b

/-- The premise of a statement about every record, from a test of every slot. -/
theorem eachRecord_of {s : State} {g : DepositRecord → Bool} (h : ∀ i : Slot, ((s.record? i).all g) = true) (i : Slot)
    (r : DepositRecord) (hr : s.record? i = some r) : g r = true := by
  have := h i
  rwa [hr] at this

theorem witness_StepRunsTheFrontCommand : ∃ (c : Instr) (rest : List Instr) (s : State), s.pending = c :: rest :=
  ⟨.jam 0, [.poll 1], { hall with pending := [.jam 0, .poll 1] }, rfl⟩

theorem witness_TickBringsTheDueExpiries :
    (∃ s : State, s.pending = [] ∧ s.running = false) ∧
    (∃ s : State, s.pending = [] ∧ s.running = true ∧ (∃ t, s.holdUp = some t ∧ t.start + t.duration ≤ s.now + 1) ∧
      (∃ e ∈ (s.port 1).window, e.deadline ≤ s.now + 1)) ∧
    ∃ s : State, s.pending = [] ∧ s.running = true ∧ ∃ r start, s.record? 5 = some r ∧ r.idleSince = some start ∧
      s.idleLimit ≠ 0 ∧ start + s.idleLimit * 60000 ≤ s.now + 1 := by
  refine ⟨⟨{ hall with powered := false }, rfl, rfl⟩,
    ⟨{ feeding (feed .active) [note 0 0] with now := 599, holdUp := some { start := 540, duration := 60 } },
      rfl, rfl, ⟨_, rfl, by decide⟩, note 0 0, by decide +kernel, by decide +kernel⟩,
    { withDeposit { deposit 5 .counting with idleSince := some 0 } with now := 1799999 }, rfl, rfl, _, _, rfl, rfl,
    by decide +kernel, by decide +kernel⟩

theorem witness_PollShiftsOutTheLinkState : ∃ (s : State) (n : Nat), s.running = true ∧ n ≠ 0 ∧
    ∃ r o, s.link = .holding r o :=
  ⟨{ hall with link := .holding { code := .ok, body := [4, 1] } true }, 8, rfl, by decide, _, _, rfl⟩

theorem witness_RequestFrameIsJudgedByTheLink :
    (∃ s : State, s.running = true ∧ ∃ r o, s.link = .executing r o) ∧
    (∃ (s : State) (code : Byte), s.running = true ∧ code ≠ 0 ∧ (∀ r o, s.link ≠ .executing r o) ∧
      0x16 < code.toNat) ∧
    (∃ (s : State) (code len : Byte) (body : List Byte), s.running = true ∧ code ≠ 0 ∧
      (∀ r o, s.link ≠ .executing r o) ∧ code.toNat ≤ 0x16 ∧ len.toNat ≤ 250 ∧ body.length = len.toNat) ∧
    ∃ (s : State) (code len : Byte) (body : List Byte), s.running = true ∧ code ≠ 0 ∧
      (∀ r o, s.link ≠ .executing r o) ∧ code.toNat ≤ 0x16 ∧ ¬ (len.toNat ≤ 250 ∧ body.length = len.toNat) :=
  ⟨⟨asked 6 [] hall, rfl, _, _, rfl⟩,
    ⟨hall, 0x17, rfl, by decide, notExecuting_of_idle rfl, by decide⟩,
    ⟨hall, 0x16, 250, List.replicate 250 0, rfl, by decide, notExecuting_of_idle rfl, by decide, by decide, by decide +kernel⟩,
    hall, 0x16, 251, List.replicate 251 0, rfl, by decide, notExecuting_of_idle rfl, by decide, by decide⟩

theorem witness_RequestCommandIsFrameThenEvent :
    (∃ (c : Instr) (r : Request) (s : State), Instr.asRequest c = some r ∧ s.running = true ∧ r.body.length ≤ 250 ∧
      ∀ q o, s.link ≠ .executing q o) ∧
    ∃ (c : Instr) (r q : Request) (o : Bool) (s : State), Instr.asRequest c = some r ∧ s.running = true ∧
      r.body.length ≤ 250 ∧ s.link = .executing q o ∧ q ≠ r :=
  ⟨⟨.settle (List.replicate 250 0), _, hall, rfl, rfl, by decide +kernel,
      notExecuting_of_idle rfl⟩,
    .readStatus [], _, _, _, asked 6 [] hall, rfl, rfl, by simp, rfl, by decide⟩

theorem witness_WrongBodyLengthIsRefused :
    (∃ (c : Instr) (r : Request) (s : State), Instr.asRequest c = some r ∧ s.executes r.code r.body = true ∧
      r.lengthFits = false) ∧
    ∃ (c : Instr) (r : Request) (s : State), Instr.asRequest c = some r ∧ s.executes r.code r.body = true ∧
      r.lengthFits = true :=
  ⟨⟨.settle [0, 0, 0], _, asked 6 [0, 0, 0] hall, rfl, by decide +kernel, by decide +kernel⟩,
    .settle [0, 0, 0, 5], _, asked 6 [0, 0, 0, 5] hall, rfl, by decide +kernel, by decide +kernel⟩

/-- A breakdown of twelve entries, the most that a body holds. -/
def twelve : List BreakdownField :=
  (List.range 12).map fun n => { index := BitVec.ofNat 8 n, count := 65535 }

theorem witness_RequestBodiesRoundTrip :
    readReference (referenceBody 5) = some 5 ∧
    ({ bag with breakdown := twelve } : Declaration).breakdown.length ≤ 12 ∧
    readDeclaration ({ bag with breakdown := twelve } : Declaration).body = some { bag with breakdown := twelve } ∧
    readAmendment (Amendment.body { reference := 5, total := 0, breakdown := twelve }) =
      some { reference := 5, total := 0, breakdown := twelve } ∧
    readLookUp [0, 0, 0, 0, 5] = some { selector := 0, value := 5 } ∧
    readListFields [0x7E, 127] = some { filter := 0x7E, start := 127 } ∧
    readSeal [0, 0, 0, 5, 1] = some { reference := 5, accept := 1 } ∧
    readDenomination ([3, 11] ++ (entry 500 100).image) = some { currency := 3, index := 11, entry := entry 500 100 } ∧
    readLimits Limits.initial.image = some Limits.initial ∧ readCurve Curve.initial.image = some Curve.initial := by
  decide +kernel

theorem witness_TransportMessagesRoundTrip :
    (∃ c p type body, Instr.wellFormed c = true ∧ messageBytes c = some (p, type, body)) ∧
    (∃ p type body c, readMessage p type body = some c) ∧
    (∃ (type : Byte) (body : List Byte), type.toNat < 0x10 ∧ body.length ≤ 255 ∧ readMessage 0 type body = none) ∧
    (∃ type : Byte, 0x17 < type.toNat ∧ readMessage 0 type [] = none) ∧
    (∃ body : List Byte, bodyLengthOf 0x17 ≠ some body.length ∧ readMessage 0 0x17 body = none) ∧
    ∃ q : Port, q.out = [] :=
  ⟨⟨.noteReport 3 255 0x0F 1 2, _, _, _, by decide +kernel, rfl⟩, ⟨3, 0x17, [7], _, rfl⟩,
    ⟨0x0F, [], by decide, by decide, rfl⟩, ⟨0x18, by decide, rfl⟩, ⟨[7, 7], by decide, rfl⟩, {}, rfl⟩

/-- R179, by hand from its table: a Strap Order for pocket 3 with number 258, a Resume, and
a Pocket Cleared of a wrong length with a Hello behind it. -/
theorem test_message_frames :
    (OutMessage.strapOrder 3 258).frame = [0x24, 5, 3, 0, 0, 1, 2] ∧ OutMessage.resume.frame = [0x26, 0] ∧
    readFrame 1 [0x17, 2, 7, 7, 0x10, 1, 0xA5] = some (.discardedMessage 1 0x17 [7, 7] false, [0x10, 1, 0xA5]) ∧
    readFrame 1 [0x10, 1, 0xA5] = some (.hello 1 0xA5, []) ∧ readFrame 1 [0x10, 1] = none := by
  decide +kernel

theorem setNamed_withDeposit (r : DepositRecord) (h : r.currency = 0) (code : Byte) (body : List Byte) :
    (asked code body (withDeposit r)).SetNamed 0 :=
  Or.inl ⟨5, r, by simp [asked, withDeposit, State.record?, State.setRecord], by simp [h]⟩

theorem not_setNamed_hall (code : Byte) (body : List Byte) (k : Nat) : ¬ (asked code body hall).SetNamed k := by
  have h1 (i : Slot) : (asked code body hall).record? i = none := by
    simp [asked, hall, State.reset, State.record?]
  have h2 (pl : Place) (b : Bundle) : (asked code body hall).binding pl ≠ .bound b := by
    simp [asked, hall, State.reset, State.binding]
  rintro (⟨i, r, hr, -⟩ | ⟨pl, b, hb, -⟩ | ⟨b, hb, -⟩)
  · rw [h1] at hr
    cases hr
  · exact h2 pl b hb
  · cases hb

theorem witness_SetDenominationIsJudgedInOrder :
    (∃ (s : State) (d : DenominationFields), s.executes 0x0E d.body = true ∧ ¬ d.entry.face.toNat ≤ 100000000) ∧
    (∃ (s : State) (d : DenominationFields), s.executes 0x0E d.body = true ∧
      (d.currency.toNat ≤ 3 ∧ d.index.toNat ≤ 11 ∧ d.entry.face.toNat ≤ 100000000 ∧
        (d.entry.strap.toNat = 0 ∨ 10 ≤ d.entry.strap.toNat ∧ d.entry.strap.toNat ≤ 200) ∧
        d.entry.fitDisposition.toNat ≤ 1 ∧ d.entry.unfitDisposition.toNat ≤ 1 ∧ d.entry.combine.toNat ≤ 1) ∧
      s.configFault = false ∧ s.SetNamed d.currency.toNat) ∧
    (∃ (s : State) (d : DenominationFields), s.executes 0x0E d.body = true ∧
      (d.currency.toNat ≤ 3 ∧ d.index.toNat ≤ 11 ∧ d.entry.face.toNat ≤ 100000000 ∧
        (d.entry.strap.toNat = 0 ∨ 10 ≤ d.entry.strap.toNat ∧ d.entry.strap.toNat ≤ 200) ∧
        d.entry.fitDisposition.toNat ≤ 1 ∧ d.entry.unfitDisposition.toNat ≤ 1 ∧ d.entry.combine.toNat ≤ 1) ∧
      s.configFault = true) ∧
    ∃ (s : State) (d : DenominationFields), s.executes 0x0E d.body = true ∧
      (d.currency.toNat ≤ 3 ∧ d.index.toNat ≤ 11 ∧ d.entry.face.toNat ≤ 100000000 ∧
        (d.entry.strap.toNat = 0 ∨ 10 ≤ d.entry.strap.toNat ∧ d.entry.strap.toNat ≤ 200) ∧
        d.entry.fitDisposition.toNat ≤ 1 ∧ d.entry.unfitDisposition.toNat ≤ 1 ∧ d.entry.combine.toNat ≤ 1) ∧
      ¬ s.SetNamed d.currency.toNat := by
  let d (k : Byte) (face : BitVec 32) (strap : Byte) : DenominationFields :=
    { currency := k, index := 11, entry := entry face strap }
  exact ⟨⟨asked 0x0E (d 3 100000001 100).body hall, d 3 100000001 100, by decide +kernel, by decide +kernel⟩,
    ⟨asked 0x0E (d 0 100000000 10).body (withDeposit (deposit 5 .declared)), d 0 100000000 10, by decide +kernel,
      by decide +kernel, rfl, setNamed_withDeposit _ rfl _ _⟩,
    ⟨asked 0x0E (d 0 0 0).body { withDeposit (deposit 5 .declared) with configFault := true }, d 0 0 0,
      by decide +kernel, by decide +kernel, rfl⟩,
    asked 0x0E (d 3 100000000 200).body hall, d 3 100000000 200, by decide +kernel, by decide +kernel,
    not_setNamed_hall _ _ _⟩

theorem witness_SetLimitsActsAtOnce :
    (∃ (s : State) (l : Limits), s.executes 0x0F l.image = true ∧
      (∀ i r, s.record? i = some r → r.idleSince ≠ none → ∀ p : PortId, r.feeding[p.val] = false) ∧
      ¬ 10 ∣ l.flight.toNat) ∧
    ∃ (s : State) (l : Limits), s.executes 0x0F l.image = true ∧
      (∀ i r, s.record? i = some r → r.idleSince ≠ none → ∀ p : PortId, r.feeding[p.val] = false) ∧
      (50 ≤ l.flight.toNat ∧ l.flight.toNat ≤ 2000 ∧ 10 ∣ l.flight.toNat) ∧ l.idle.toNat ≤ 240 ∧
      (20 ≤ l.holdUp.toNat ∧ l.holdUp.toNat ≤ 200) ∧ (50 ≤ l.suspectStop.toNat ∧ l.suspectStop.toNat ≤ 300) ∧
      (100 ≤ l.returnStop.toNat ∧ l.returnStop.toNat ≤ 500) ∧
      ∃ r start, s.record? 5 = some r ∧ r.idleSince = some start ∧ start + l.idle.toNat * 60000 ≤ s.now := by
  let l1 : Limits := { flight := 2001, idle := 0, holdUp := 20, suspectStop := 50, returnStop := 100 }
  let l2 : Limits := { flight := 2000, idle := 240, holdUp := 200, suspectStop := 300, returnStop := 500 }
  let s2 : State := { withDeposit { deposit 5 .counting with idleSince := some 0 } with now := 14400000 }
  have h2 : ∀ i : Slot, (((asked 0x0F l2.image s2).record? i).all fun r => r.feedingEmpty) = true := by decide +kernel
  refine ⟨⟨asked 0x0F l1.image hall, l1, by decide +kernel, fun i r h => ?_, by decide⟩,
    asked 0x0F l2.image s2, l2, by decide +kernel, fun i r h _ => ?_, by decide, by decide, by decide, by decide,
    by decide, _, _, rfl, rfl, by decide⟩
  · simp [asked, hall, State.reset, State.record?] at h
  · exact DepositRecord.feedingEmpty_iff.1 (eachRecord_of h2 i r h)

theorem witness_SetPaceCurveIsStoredAndPaced :
    (∃ (s : State) (c : Curve), s.executes 0x10 c.image = true ∧ s.effective ≤ 16 ∧ 4 < c.hysteresis.toNat) ∧
    ∃ (s : State) (c : Curve), s.executes 0x10 c.image = true ∧ s.effective ≤ 16 ∧ c.hysteresis.toNat ≤ 4 :=
  ⟨⟨asked 0x10 (Curve.image { Curve.initial with hysteresis := 5 }) hall, { Curve.initial with hysteresis := 5 },
      by decide +kernel, by decide +kernel, by decide⟩,
    asked 0x10 (Curve.image { Curve.initial with hysteresis := 4 }) { hall with effective := 16 },
    { Curve.initial with hysteresis := 4 }, by decide +kernel, by decide +kernel, by decide⟩

theorem witness_ReadConfigurationReturnsTheStore :
    (∃ (s : State) (sel : Byte), s.executes 0x11 [sel] = true ∧ 4 < sel.toNat) ∧
    (∃ (s : State) (sel : Byte), s.executes 0x11 [sel] = true ∧ sel.toNat = 4) ∧
    ∃ (s : State) (sel : Byte) (k : SetId), s.executes 0x11 [sel] = true ∧ sel.toNat = k.val :=
  ⟨⟨asked 0x11 [5] hall, 5, by decide +kernel, by decide⟩, ⟨asked 0x11 [4] hall, 4, by decide +kernel, by decide⟩,
    asked 0x11 [3] hall, 3, 3, by decide +kernel, by decide⟩

theorem legal_initial : Configuration.initial.Legal := by
  have h (k : SetId) (i : DenomIndex) : Configuration.initial.entry k i = DenomEntry.initial := by
    simp [Configuration.initial, Configuration.entry]
  refine ⟨fun k i => ?_, by decide +kernel, by decide, by decide, by decide, by decide, by decide +kernel, by decide⟩
  rw [h]
  decide

theorem legal_cfg : cfg.Legal := by
  unfold Configuration.Legal
  decide +kernel

theorem not_legal_of_face : ¬ (Configuration.initial.setEntry 3 11 (entry 100000001 100)).Legal := fun h => by
  have := (h.1 3 11).1
  revert this
  decide +kernel

theorem nothingHeld_hall (code : Byte) (body : List Byte) : (asked code body hall).NothingHeld :=
  ⟨fun i => by simp [asked, hall, State.reset, State.record?],
    fun pl b => by simp [asked, hall, State.reset, State.binding], rfl, rfl⟩

theorem witness_CommitAndInitializeLeaveTheFault :
    (∃ s : State, s.executes 0x12 [] = true ∧ ¬ s.config.Legal) ∧
    (∃ s : State, s.executes 0x12 [] = true ∧ s.config.Legal) ∧
    (∃ s : State, s.executes 0x13 [] = true ∧ s.effective ≤ 16 ∧ ¬ s.NothingHeld) ∧
    ∃ s : State, s.executes 0x13 [] = true ∧ s.effective ≤ 16 ∧ s.NothingHeld :=
  ⟨⟨asked 0x12 [] { hall with config := Configuration.initial.setEntry 3 11 (entry 100000001 100), configFault := true },
      by decide +kernel, not_legal_of_face⟩,
    ⟨asked 0x12 [] { State.reset with configFault := true }, by decide +kernel, legal_initial⟩,
    ⟨asked 0x13 [] { hall with queue := [.lifted strapped] }, by decide +kernel, by decide +kernel,
      fun h => by cases h.2.2.2⟩,
    asked 0x13 [] hall, by decide +kernel, by decide +kernel, nothingHeld_hall _ _⟩

theorem witness_ConfigurationLawIsKept : ∃ s t : State, s.ConfigurationLaw ∧ step s = .next t :=
  ⟨State.reset, _, fun _ _ => ⟨crc_initial.symm, legal_initial⟩, rfl⟩

/-- Two of index 1 and one of index 0: 2,500 in set 0. -/
def two : List BreakdownField :=
  [{ index := 1, count := 2 }, { index := 0, count := 1 }]

theorem shaped_two : BreakdownShaped two :=
  ⟨by decide, by decide⟩

theorem enabled_two : BreakdownEnabled cfg 0 two := by
  unfold BreakdownEnabled two
  decide +kernel

theorem shaped_nil : BreakdownShaped [] :=
  ⟨by simp, List.Pairwise.nil⟩

theorem enabled_nil (c : Configuration) (k : SetId) : BreakdownEnabled c k [] := by
  simp [BreakdownEnabled]

theorem unnamed_hall (code : Byte) (body : List Byte) (ref : Reference) : (asked code body hall).Unnamed ref :=
  fun i r h => by simp [asked, hall, State.reset, State.record?] at h

/-- A full table. -/
def fullTable (r : DepositRecord) : State :=
  { hall with records := Vector.replicate 128 (some r) }

theorem witness_DeclareRefusesInOrder :
    (∃ (s : State) (d : Declaration), d.breakdown.length ≤ 12 ∧ s.executes 0x01 d.body = true ∧
      s.configFault = true) ∧
    (∃ (s : State) (d : Declaration), d.breakdown.length ≤ 12 ∧ s.executes 0x01 d.body = true ∧
      s.configFault = false ∧ ¬ (d.reference ≠ 0 ∧ d.custody.toNat ≤ 1 ∧ BreakdownShaped d.breakdown ∧
        ∃ k : SetId, d.currency.toNat = k.val ∧ BreakdownEnabled s.config k d.breakdown)) ∧
    (∃ (s : State) (d : Declaration), d.breakdown.length ≤ 12 ∧ s.executes 0x01 d.body = true ∧
      s.configFault = false ∧ (d.reference ≠ 0 ∧ d.custody.toNat ≤ 1 ∧ BreakdownShaped d.breakdown ∧
        ∃ k : SetId, d.currency.toNat = k.val ∧ BreakdownEnabled s.config k d.breakdown) ∧
      ¬ s.Unnamed d.reference) ∧
    (∃ (s : State) (d : Declaration), d.breakdown.length ≤ 12 ∧ s.executes 0x01 d.body = true ∧
      s.configFault = false ∧ (d.reference ≠ 0 ∧ d.custody.toNat ≤ 1 ∧ BreakdownShaped d.breakdown ∧
        ∃ k : SetId, d.currency.toNat = k.val ∧ BreakdownEnabled s.config k d.breakdown) ∧
      s.Unnamed d.reference ∧ ∀ i, s.record? i ≠ none) ∧
    ∃ (s : State) (d : Declaration), d.breakdown.length ≤ 12 ∧ s.executes 0x01 d.body = true ∧
      s.configFault = false ∧ (d.reference ≠ 0 ∧ d.custody.toNat ≤ 1 ∧ BreakdownShaped d.breakdown ∧
        ∃ k : SetId, d.currency.toNat = k.val ∧ BreakdownEnabled s.config k d.breakdown) ∧
      s.Unnamed d.reference ∧ (¬ ∀ i, s.record? i ≠ none) ∧
      ∃ k : SetId, d.currency.toNat = k.val ∧ d.breakdown ≠ [] ∧
        breakdownValue s.config k d.breakdown ≠ d.total.toNat := by
  let d2 : Declaration := { bag with breakdown := two }
  refine ⟨⟨asked 1 bag.body { hall with configFault := true }, bag, by decide, by decide +kernel, rfl⟩,
    ⟨asked 1 (Declaration.body { bag with custody := 2 }) hall, { bag with custody := 2 }, by decide,
      by decide +kernel, rfl, fun h => absurd h.2.1 (by decide)⟩,
    ⟨asked 1 bag.body (withDeposit (deposit 3180004 .sealed)), bag, by decide, by decide +kernel, rfl,
      ⟨by decide, by decide, shaped_nil, 0, rfl, enabled_nil _ _⟩, fun h => h 5 (deposit 3180004 .sealed) ?_ rfl⟩,
    ⟨asked 1 bag.body (fullTable (deposit 5 .declared)), bag, by decide, by decide +kernel, rfl,
      ⟨by decide, by decide, shaped_nil, 0, rfl, enabled_nil _ _⟩, fun i r h => ?_, fun i => ?_⟩,
    asked 1 d2.body hall, d2, by decide, by decide +kernel, rfl,
    ⟨by decide, by decide, shaped_two, 0, rfl, enabled_two⟩, unnamed_hall _ _ _, fun h => h 0 ?_, 0, rfl,
    by decide, by decide +kernel⟩
  · simp [asked, withDeposit, State.record?, State.setRecord]
  · have h' : deposit 5 .declared = r := by simpa [asked, fullTable, State.record?] using h
    rw [← h']
    decide
  · simp [asked, fullTable, State.record?]
  · simp [asked, hall, State.reset, State.record?]

theorem witness_DeclareWritesTheLowestFreeSlot :
    (∃ (s : State) (d : Declaration) (k : SetId) (i : Slot), d.breakdown.length ≤ 12 ∧
      s.executes 0x01 d.body = true ∧ s.configFault = false ∧ d.reference ≠ 0 ∧ d.custody.toNat ≤ 1 ∧
      d.currency.toNat = k.val ∧ BreakdownShaped d.breakdown ∧ BreakdownEnabled s.config k d.breakdown ∧
      s.Unnamed d.reference ∧ s.record? i = none ∧ (∀ j, j < i → s.record? j ≠ none) ∧ d.breakdown = []) ∧
    ∃ (s : State) (d : Declaration) (k : SetId) (i : Slot), d.breakdown.length ≤ 12 ∧
      s.executes 0x01 d.body = true ∧ s.configFault = false ∧ d.reference ≠ 0 ∧ d.custody.toNat ≤ 1 ∧
      d.currency.toNat = k.val ∧ BreakdownShaped d.breakdown ∧ BreakdownEnabled s.config k d.breakdown ∧
      s.Unnamed d.reference ∧ s.record? i = none ∧ (∀ j, j < i → s.record? j ≠ none) ∧
      breakdownValue s.config k d.breakdown = d.total.toNat := by
  let d2 : Declaration := { bag with breakdown := two, total := 2500 }
  let full : State := (fullTable (deposit 5 .declared)).setRecord 127 none
  refine ⟨⟨asked 1 bag.body full, bag, 0, 127, by decide, by decide +kernel, by decide +kernel, by decide, by decide,
    rfl, shaped_nil,
    enabled_nil _ _, unnamed_of (by decide +kernel), by decide +kernel, by decide +kernel, rfl⟩,
    asked 1 d2.body hall, d2, 0, 0, by decide, by decide +kernel, rfl, by decide, by decide, rfl, shaped_two, enabled_two,
    unnamed_hall _ _ _, by decide +kernel, by decide +kernel, by decide +kernel⟩

/-- A deposit of reference 5 in slot 5 is named by it. -/
theorem named_withDeposit (r : DepositRecord) (h : r.reference = 5) (code : Byte) (body : List Byte) :
    (asked code body (withDeposit r)).Named 5 5 r := by
  have hr (j : Slot) : (asked code body (withDeposit r)).record? j = if j = 5 then some r else none := by
    have h0 : hall.record? j = none := by simp [hall, State.reset, State.record?]
    have h1 : (asked code body (withDeposit r)).record? j = (withDeposit r).record? j := by
      simp only [asked, State.record?]
    rw [h1, withDeposit, State.record?_setRecord, h0]
  refine ⟨by rw [hr]; rfl, h, by decide, fun j r' hj _ => ?_⟩
  rw [hr] at hj
  by_contra hne
  rw [if_neg hne] at hj
  cases hj

/-- A settled record with a note. -/
def settled (st : RecordState) : DepositRecord :=
  { deposit 5 st with returned := 1, result := some verdict }

def amend5 (l : List BreakdownField) (total : BitVec 48) : Amendment :=
  { reference := 5, total := total, breakdown := l }

theorem witness_AmendIsJudgedInOrder :
    (∃ (s : State) (d : Amendment), d.breakdown.length ≤ 12 ∧ s.executes 0x02 d.body = true ∧ s.configFault = true) ∧
    (∃ (s : State) (d : Amendment), d.breakdown.length ≤ 12 ∧ s.executes 0x02 d.body = true ∧
      s.configFault = false ∧ ¬ (d.reference ≠ 0 ∧ BreakdownShaped d.breakdown)) ∧
    (∃ (s : State) (d : Amendment), d.breakdown.length ≤ 12 ∧ s.executes 0x02 d.body = true ∧
      s.configFault = false ∧ (d.reference ≠ 0 ∧ BreakdownShaped d.breakdown) ∧ s.Unnamed d.reference) ∧
    (∃ (s : State) (d : Amendment) (i : Slot) (r : DepositRecord), d.breakdown.length ≤ 12 ∧
      s.executes 0x02 d.body = true ∧ s.configFault = false ∧ (d.reference ≠ 0 ∧ BreakdownShaped d.breakdown) ∧
      s.Named d.reference i r ∧ ¬ BreakdownEnabled s.config r.currency d.breakdown) ∧
    (∃ (s : State) (d : Amendment) (i : Slot) (r : DepositRecord), d.breakdown.length ≤ 12 ∧
      s.executes 0x02 d.body = true ∧ s.configFault = false ∧ (d.reference ≠ 0 ∧ BreakdownShaped d.breakdown) ∧
      s.Named d.reference i r ∧ BreakdownEnabled s.config r.currency d.breakdown ∧ r.state = .sealed) ∧
    (∃ (s : State) (d : Amendment) (i : Slot) (r : DepositRecord), d.breakdown.length ≤ 12 ∧
      s.executes 0x02 d.body = true ∧ s.configFault = false ∧ (d.reference ≠ 0 ∧ BreakdownShaped d.breakdown) ∧
      s.Named d.reference i r ∧ BreakdownEnabled s.config r.currency d.breakdown ∧ r.state ≠ .sealed ∧
      ¬ (d.breakdown = [] ∨ breakdownValue s.config r.currency d.breakdown = d.total.toNat)) ∧
    ∃ (s : State) (d : Amendment) (i : Slot) (r : DepositRecord), d.breakdown.length ≤ 12 ∧
      s.executes 0x02 d.body = true ∧ s.configFault = false ∧ (d.reference ≠ 0 ∧ BreakdownShaped d.breakdown) ∧
      s.Named d.reference i r ∧ BreakdownEnabled s.config r.currency d.breakdown ∧ r.state = .discrepant ∧
      breakdownValue s.config r.currency d.breakdown = d.total.toNat := by
  let off : List BreakdownField := [{ index := 11, count := 1 }]
  refine ⟨⟨asked 2 (amend5 [] 0).body { hall with configFault := true }, amend5 [] 0, by decide, by decide +kernel, rfl⟩,
    ⟨asked 2 (Amendment.body { reference := 0, total := 0, breakdown := [] }) hall,
      { reference := 0, total := 0, breakdown := [] }, by decide, by decide +kernel, rfl, fun h => h.1 rfl⟩,
    ⟨asked 2 (amend5 [] 0).body hall, amend5 [] 0, by decide, by decide +kernel, rfl, ⟨by decide, shaped_nil⟩,
      unnamed_hall _ _ _⟩,
    ⟨asked 2 (amend5 off 0).body (withDeposit (deposit 5 .declared)), amend5 off 0, 5, deposit 5 .declared, by decide,
      by decide +kernel, rfl, ⟨by decide, by decide, by decide⟩, named_withDeposit _ rfl _ _, fun h =>
        absurd (h ⟨11, 1⟩ (by simp [amend5, off]) 11 rfl) (by decide +kernel)⟩,
    ⟨asked 2 (amend5 [] 0).body (withDeposit (settled .sealed)), amend5 [] 0, 5, settled .sealed, by decide,
      by decide +kernel, rfl, ⟨by decide, shaped_nil⟩, named_withDeposit _ rfl _ _, enabled_nil _ _, rfl⟩,
    ⟨asked 2 (amend5 two 2501).body (withDeposit (deposit 5 .declared)), amend5 two 2501, 5, deposit 5 .declared,
      by decide, by decide +kernel, rfl, ⟨by decide, shaped_two⟩, named_withDeposit _ rfl _ _, enabled_two, by decide,
      by decide +kernel⟩,
    asked 2 (amend5 two 2500).body (withDeposit (settled .discrepant)), amend5 two 2500, 5, settled .discrepant,
    by decide, by decide +kernel, rfl, ⟨by decide, shaped_two⟩, named_withDeposit _ rfl _ _, enabled_two, rfl,
    by decide +kernel⟩

/-- A SEALED record of 35 notes, of which `n` have left custody. -/
def sealedWith (n : Nat) : DepositRecord :=
  { deposit 5 .sealed with
    result := some verdict, collected := n
    cells := (Vector.replicate 12 ({} : TallyCell)).set 1 { fit := 35 } }

theorem witness_CancelSealAndRetireEndARecord :
    (∃ (s : State) (ref : Reference) (i : Slot) (r : DepositRecord), s.executes 0x03 (referenceBody ref) = true ∧
      s.Named ref i r ∧ (r.state = .declared ∧ r.holdsCredit = false ∧ r.pending = 0)) ∧
    (∃ (s : State) (ref : Reference) (i : Slot) (r : DepositRecord), s.executes 0x03 (referenceBody ref) = true ∧
      s.Named ref i r ∧ ¬ (r.state = .declared ∧ r.holdsCredit = false ∧ r.pending = 0)) ∧
    (∃ (s : State) (ref : Reference), s.executes 0x03 (referenceBody ref) = true ∧ ref ≠ 0 ∧ s.Unnamed ref) ∧
    (∃ (s : State) (ref : Reference) (i : Slot) (r : DepositRecord), s.executes 0x0A (referenceBody ref) = true ∧
      s.Named ref i r ∧ r.state ≠ .sealed) ∧
    (∃ (s : State) (ref : Reference) (i : Slot) (r : DepositRecord), s.executes 0x0A (referenceBody ref) = true ∧
      s.Named ref i r ∧ r.state = .sealed ∧ r.bandedTotal ≠ r.collected + r.voided) ∧
    (∃ (s : State) (ref : Reference) (i : Slot) (r : DepositRecord), s.executes 0x0A (referenceBody ref) = true ∧
      s.Named ref i r ∧ r.state = .sealed ∧ r.bandedTotal = r.collected + r.voided) ∧
    (∃ (s : State) (d : SealFields), s.executes 0x09 d.body = true ∧ (1 < d.accept.toNat ∨ d.reference = 0)) ∧
    (∃ (s : State) (d : SealFields) (i : Slot) (r : DepositRecord), s.executes 0x09 d.body = true ∧
      d.accept.toNat ≤ 1 ∧ s.Named d.reference i r ∧ (r.state = .balanced ∨ r.state = .discrepant ∧ d.accept.toNat = 1)) ∧
    ∃ (s : State) (d : SealFields) (i : Slot) (r : DepositRecord), s.executes 0x09 d.body = true ∧
      d.accept.toNat ≤ 1 ∧ s.Named d.reference i r ∧
      ¬ (r.state = .balanced ∨ r.state = .discrepant ∧ d.accept.toNat = 1) :=
  ⟨⟨asked 3 (referenceBody 5) (withDeposit (deposit 5 .declared)), 5, 5, _, by decide +kernel, named_withDeposit _ rfl _ _,
      by decide +kernel⟩,
    ⟨asked 3 (referenceBody 5) (withDeposit { deposit 5 .declared with lost := 1 }), 5, 5, _, by decide +kernel,
      named_withDeposit _ rfl _ _, by decide +kernel⟩,
    ⟨asked 3 (referenceBody 5) hall, 5, by decide +kernel, by decide, unnamed_hall _ _ _⟩,
    ⟨asked 10 (referenceBody 5) (withDeposit (settled .balanced)), 5, 5, _, by decide +kernel, named_withDeposit _ rfl _ _, by decide⟩,
    ⟨asked 10 (referenceBody 5) (withDeposit (sealedWith 34)), 5, 5, _, by decide +kernel, named_withDeposit _ rfl _ _, rfl,
      by decide +kernel⟩,
    ⟨asked 10 (referenceBody 5) (withDeposit (sealedWith 35)), 5, 5, _, by decide +kernel, named_withDeposit _ rfl _ _, rfl,
      by decide +kernel⟩,
    ⟨asked 9 (SealFields.body { reference := 5, accept := 2 }) hall, { reference := 5, accept := 2 }, by decide +kernel, by decide⟩,
    ⟨asked 9 (SealFields.body { reference := 5, accept := 1 }) (withDeposit (settled .discrepant)),
      { reference := 5, accept := 1 }, 5, _, by decide +kernel, by decide,
      named_withDeposit _ rfl _ _, by decide⟩,
    asked 9 (SealFields.body { reference := 5, accept := 0 }) (withDeposit (settled .discrepant)),
      { reference := 5, accept := 0 }, 5, _, by decide +kernel, by decide,
    named_withDeposit _ rfl _ _, by decide⟩

theorem witness_LookUpAnswersTheRecord :
    (∃ (s : State) (d : LookUpFields), s.executes 0x04 d.body = true ∧ 1 < d.selector.toNat) ∧
    (∃ (s : State) (d : LookUpFields) (i : Slot) (r : DepositRecord), s.executes 0x04 d.body = true ∧
      d.selector.toNat = 0 ∧ s.Named d.value i r ∧ r.breakdown.length ≤ 12 ∧
      ∀ t l, r.result = some t → t.mismatches = some l → l.length ≤ 12) ∧
    (∃ (s : State) (d : LookUpFields), s.executes 0x04 d.body = true ∧ d.selector.toNat = 1 ∧ 127 < d.value.toNat) ∧
    ∃ (s : State) (d : LookUpFields) (i : Slot), s.executes 0x04 d.body = true ∧ d.selector.toNat = 1 ∧
      d.value.toNat = i.val ∧ s.record? i = none := by
  refine ⟨⟨asked 4 (LookUpFields.body { selector := 2, value := 5 }) hall,
      { selector := 2, value := 5 }, by decide +kernel, by decide⟩,
    ⟨asked 4 (LookUpFields.body { selector := 0, value := 5 }) (withDeposit (settled .discrepant)),
      { selector := 0, value := 5 }, 5, settled .discrepant,
      by decide +kernel, rfl, named_withDeposit _ rfl _ _, by decide, fun t l ht hl => ?_⟩,
    ⟨asked 4 (LookUpFields.body { selector := 1, value := 128 }) hall,
      { selector := 1, value := 128 }, by decide +kernel, rfl, by decide⟩,
    asked 4 (LookUpFields.body { selector := 1, value := 127 }) hall,
      { selector := 1, value := 127 }, 127, by decide +kernel, rfl, rfl, by decide +kernel⟩
  obtain rfl := Option.some.inj ht
  cases hl

theorem witness_ListAnswersTheNextSixteen :
    (∃ (s : State) (d : ListFields), s.executes 0x05 d.body = true ∧
      (d.filter.getLsbD 0 = true ∨ d.filter.getLsbD 7 = true ∨ 127 < d.start.toNat)) ∧
    ∃ (s : State) (d : ListFields), s.executes 0x05 d.body = true ∧
      ¬ (d.filter.getLsbD 0 = true ∨ d.filter.getLsbD 7 = true ∨ 127 < d.start.toNat) :=
  ⟨⟨asked 5 (ListFields.body { filter := 0, start := 128 }) hall,
      { filter := 0, start := 128 }, by decide +kernel, by decide⟩,
    asked 5 (ListFields.body { filter := 0x20, start := 112 }) (fullTable (deposit 5 .held)),
      { filter := 0x20, start := 112 }, by decide +kernel, by decide⟩

theorem witness_HoldStopsTheRecordAndItsFeeds :
    (∃ (s : State) (ref : Reference), s.executes 0x07 (referenceBody ref) = true ∧ ref ≠ 0 ∧ s.Unnamed ref) ∧
    (∃ (s : State) (ref : Reference) (i : Slot) (r : DepositRecord), s.executes 0x07 (referenceBody ref) = true ∧
      s.Named ref i r ∧ r.state = .sealed) ∧
    ∃ (s : State) (ref : Reference) (i : Slot) (r : DepositRecord), s.executes 0x07 (referenceBody ref) = true ∧
      s.Named ref i r ∧ r.state ≠ .sealed ∧ r.feeding[1] = true :=
  ⟨⟨asked 7 (referenceBody 5) hall, 5, by decide +kernel, by decide, unnamed_hall _ _ _⟩,
    ⟨asked 7 (referenceBody 5) (withDeposit (settled .sealed)), 5, 5, _, by decide +kernel, named_withDeposit _ rfl _ _, rfl⟩,
    asked 7 (referenceBody 5) (withDeposit { deposit 5 .counting with feeding := fedBy 1 }), 5, 5, _, by decide +kernel,
    named_withDeposit _ rfl _ _, by decide, by decide +kernel⟩

theorem witness_ReleaseEndsTheHold :
    (∃ (s : State) (ref : Reference) (i : Slot) (r : DepositRecord), s.executes 0x08 (referenceBody ref) = true ∧
      s.Named ref i r ∧ r.state ≠ .held) ∧
    (∃ (s : State) (ref : Reference) (i : Slot) (r : DepositRecord), s.executes 0x08 (referenceBody ref) = true ∧
      s.Named ref i r ∧ r.state = .held ∧ r.holdsCredit = true) ∧
    ∃ (s : State) (ref : Reference) (i : Slot) (r : DepositRecord), s.executes 0x08 (referenceBody ref) = true ∧
      s.Named ref i r ∧ r.state = .held ∧ r.holdsCredit = false ∧ r.pending = 0 :=
  ⟨⟨asked 8 (referenceBody 5) (withDeposit (deposit 5 .declared)), 5, 5, _, by decide +kernel, named_withDeposit _ rfl _ _, by decide⟩,
    ⟨asked 8 (referenceBody 5) (withDeposit { deposit 5 .held with holds := { idle := true }, lost := 1 }), 5, 5, _, by decide +kernel,
      named_withDeposit _ rfl _ _, rfl, by decide +kernel⟩,
    asked 8 (referenceBody 5) (withDeposit { deposit 5 .held with holds := { host := true } }), 5, 5, _, by decide +kernel,
    named_withDeposit _ rfl _ _, rfl, by decide +kernel, rfl⟩

theorem witness_RecordsAreFixedAndOnlyGrow :
    (∃ (c : Instr) (s t : State) (i : Slot), exec c s = .next t ∧ s.record? i = none) ∧
    ∃ (c : Instr) (s t : State) (i : Slot) (r : DepositRecord), exec c s = .next t ∧ s.record? i = some r :=
  ⟨⟨.declare bag.body, hall, _, 0, rfl, by decide +kernel⟩,
    .retire (referenceBody 5), withDeposit (sealedWith 35), _, 5, _, rfl, rfl⟩

theorem witness_SealedRecordsAreFrozen : ∃ (c : Instr) (s t : State) (i : Slot) (r : DepositRecord),
    exec c s = .next t ∧ s.record? i = some r ∧ r.state = .sealed ∧
    (∀ p f, s.feed? p = some f → f.slot ≠ i) ∧ (∀ p, ∀ e ∈ (s.port p).window, e.slot ≠ some i) := by
  refine ⟨.takeBundle [], { withDeposit (sealedWith 15) with queue := [.lifted strapped] }, _, 5, sealedWith 15, rfl,
    by decide +kernel, rfl, fun p f h => ?_, by decide +kernel⟩
  have h' : ∀ p : PortId, ({ withDeposit (sealedWith 15) with queue := [.lifted strapped] } : State).feed? p = none := by
    decide +kernel
  rw [h' p] at h
  cases h

/-- A record that meets the law of the records, alone in the table. -/
theorem recordLaw_one {s : State} (i : Slot) (r : DepositRecord) (hr : s.record? i = some r)
    (hs : ∀ j, j ≠ i → s.record? j = none)
    (h : r.reference ≠ 0 ∧ (r.holds ≠ {} ↔ r.state = .held) ∧
      (r.result ≠ none ↔ r.state = .balanced ∨ r.state = .discrepant ∨ r.state = .sealed) ∧
      (s.running = true → (r.idleSince ≠ none ↔ r.state = .counting ∧ ∀ p : PortId, r.feeding[p.val] = false)) ∧
      r.reopens ≤ 3 ∧ r.unrecognized ≤ 65535 ∧ r.returned ≤ 65535 ∧ r.lost ≤ 65535 ∧
      ∀ j : DenomIndex, r.cells[j.val].suspect ≤ 65535) : s.RecordLaw := by
  have only {j : Slot} {r' : DepositRecord} (hj : s.record? j = some r') : j = i ∧ r' = r := by
    by_cases e : j = i
    · subst e
      exact ⟨rfl, Option.some.inj (hj.symm.trans hr)⟩
    · rw [hs j e] at hj
      cases hj
  refine ⟨fun j r' hj => ?_, fun j k r1 r2 hj hk _ => (only hj).1.trans (only hk).1.symm⟩
  obtain ⟨-, rfl⟩ := only hj
  exact h

theorem witness_RecordLawIsKept : ∃ s t : State, s.RecordLaw ∧ step s = .next t ∧ ∃ r, s.record? 5 = some r := by
  refine ⟨{ withDeposit { deposit 5 .held with holds := { host := true }, lost := 65535, reopens := 3 } with
      pending := [.release (referenceBody 5)] }, _,
    recordLaw_one 5 { deposit 5 .held with holds := { host := true }, lost := 65535, reopens := 3 } rfl ?_
      (by decide +kernel), rfl, _, rfl⟩
  decide +kernel

/-! ### Settlement -/

theorem witness_SettlementFollowsTheFigures : ∃ (r : DepositRecord) (face : DenomIndex → Nat),
    (∀ j : DenomIndex, face j ≤ 100000000 ∧ r.cells[j.val].fit ≤ 65535 ∧ r.cells[j.val].unfit ≤ 65535 ∧
      r.cells[j.val].suspect ≤ 65535) ∧
    (r.breakdown.Pairwise fun a b => a.index ≠ b.index) ∧ (∀ e ∈ r.breakdown, e.count ≤ 65535) ∧
    r.declaredTotal < 2 ^ 48 :=
  ⟨{ deposit 5 .counting with
      declaredTotal := 2 ^ 48 - 1, cells := Vector.replicate 12 { fit := 65535, unfit := 65535, suspect := 65535 }
      breakdown := [⟨0, 65535⟩, ⟨11, 1⟩] }, fun _ => 100000000, by decide +kernel, by decide, by decide, by decide⟩

theorem witness_SettleStoresTheResult :
    (∃ (s : State) (ref : Reference), s.executes 0x06 (referenceBody ref) = true ∧ s.configFault = true) ∧
    (∃ (s : State) (ref : Reference), s.executes 0x06 (referenceBody ref) = true ∧ s.configFault = false ∧ ref = 0) ∧
    (∃ (s : State) (ref : Reference), s.executes 0x06 (referenceBody ref) = true ∧ s.configFault = false ∧ ref ≠ 0 ∧
      s.Unnamed ref) ∧
    (∃ (s : State) (ref : Reference) (i : Slot) (r : DepositRecord), s.executes 0x06 (referenceBody ref) = true ∧
      s.configFault = false ∧ s.Named ref i r ∧ r.state ≠ .declared ∧ r.state ≠ .counting) ∧
    (∃ (s : State) (ref : Reference) (i : Slot) (r : DepositRecord), s.executes 0x06 (referenceBody ref) = true ∧
      s.configFault = false ∧ s.Named ref i r ∧ r.state = .counting ∧ ∃ p : PortId, r.feeding[p.val] = true) ∧
    (∃ (s : State) (ref : Reference) (i : Slot) (r : DepositRecord), s.executes 0x06 (referenceBody ref) = true ∧
      s.configFault = false ∧ s.Named ref i r ∧ r.state = .declared ∧ (¬ ∃ p : PortId, r.feeding[p.val] = true) ∧
      r.custody = .pooled) ∧
    ∃ (s : State) (ref : Reference) (i : Slot) (r : DepositRecord), s.executes 0x06 (referenceBody ref) = true ∧
      s.configFault = false ∧ s.Named ref i r ∧ r.state = .counting ∧ (¬ ∃ p : PortId, r.feeding[p.val] = true) ∧
      r.custody = .segregated :=
  ⟨⟨asked 6 (referenceBody 5) { hall with configFault := true }, 5, by decide +kernel, rfl⟩,
    ⟨asked 6 (referenceBody 0) hall, 0, by decide +kernel, rfl, rfl⟩,
    ⟨asked 6 (referenceBody 5) hall, 5, by decide +kernel, rfl, by decide, unnamed_hall _ _ _⟩,
    ⟨asked 6 (referenceBody 5) (withDeposit (settled .balanced)), 5, 5, _, by decide +kernel, rfl, named_withDeposit _ rfl _ _,
      by decide, by decide⟩,
    ⟨asked 6 (referenceBody 5) (withDeposit { deposit 5 .counting with feeding := fedBy 3 }), 5, 5, _, by decide +kernel, rfl,
      named_withDeposit _ rfl _ _, rfl, 3, by decide +kernel⟩,
    ⟨asked 6 (referenceBody 5) (withDeposit (deposit 5 .declared)), 5, 5, _, by decide +kernel, rfl, named_withDeposit _ rfl _ _, rfl,
      by decide +kernel, rfl⟩,
    asked 6 (referenceBody 5) (withDeposit { deposit 5 .counting with custody := .segregated }), 5, 5, _, by decide +kernel, rfl,
    named_withDeposit _ rfl _ _, rfl, by decide +kernel, rfl⟩

/-! ### Bundles and the Pace Governor -/

theorem witness_TakeBundleHandsOverTheHead :
    (∃ s : State, s.executes 0x0B [] = true ∧ s.queue = []) ∧
    (∃ s : State, s.executes 0x0B [] = true ∧ ∃ pl rest, s.queue = .inPocket pl :: rest) ∧
    (∃ s : State, s.executes 0x0B [] = true ∧ s.waiting.Nodup ∧ s.waiting ≠ [] ∧
      ∃ b rest, s.queue = .lifted b :: rest ∧ b.contributions.length ≤ 8) ∧
    ∃ s : State, s.executes 0x0C [] = true ∧ ∃ e rest b, s.queue = e :: rest ∧ s.queued? e = some b ∧
      b.contributions.length ≤ 8 :=
  ⟨⟨asked 11 [] hall, by decide +kernel, rfl⟩,
    ⟨asked 11 [] { hall with queue := [.inPocket 0] }, by decide +kernel, _, _, rfl⟩,
    ⟨asked 11 [] { hall with queue := List.replicate 16 (.lifted strapped), waiting := [0, 1] }, by decide +kernel,
      by decide, by decide, strapped, List.replicate 15 (.lifted strapped), rfl, by decide⟩,
    asked 12 [] { hall with queue := [.lifted strapped] }, by decide +kernel, .lifted strapped, [], strapped, rfl, rfl,
    by decide⟩

theorem witness_FlushPooledClosesShort :
    (∃ (s : State) (k : Byte), s.executes 0x0D [k] = true ∧ 3 < k.toNat) ∧
    ∃ (s : State) (k : Byte), s.executes 0x0D [k] = true ∧ k.toNat ≤ 3 :=
  ⟨⟨asked 13 [4] hall, 4, by decide +kernel, by decide⟩, asked 13 [3] hall, 3, by decide +kernel, by decide⟩

theorem witness_GovernorJudgesEveryEvent : ∃ (c : Instr) (s t : State), exec c s = .next t ∧
    (∀ cause, c ≠ .startUp cause) ∧ c ≠ .resetLineAsserted ∧ c ≠ .powerFailure ∧ t.backlog ≠ s.backlog :=
  ⟨.takeBundle [], { hall with queue := [.lifted strapped], effective := 1 }, _, rfl,
    fun _ => by simp, by simp, by simp, by decide +kernel⟩

theorem witness_GovernorLawIsKept : ∃ s t : State, s.GovernorLaw ∧ step s = .next t ∧ ∃ p, (s.port p).isDown = false :=
  ⟨{ hall with
      ports := Vector.replicate 4 { state := .ready, out := [.helloAnswer 1000, .resume] }, pending := [.takeBundle []] },
    _, ⟨by decide +kernel, by decide +kernel, by decide +kernel⟩, rfl, 0, by decide +kernel⟩

theorem witness_ListsLawIsKept : ∃ s t : State, s.ListsLaw ∧ step s = .next t ∧ s.queue ≠ [] := by
  let s : State := { hall with
    queue := [.lifted { strapped with number := some 0xFFFFFFFF }], nextNumber := 1, pending := [.takeBundle []] }
  have hn (pl : Place) : s.bundleState? pl = none := by
    have : ∀ pl : Place, s.bundleState? pl = none := by decide +kernel
    exact this pl
  have hb (pl : Place) (b : Bundle) : s.binding pl ≠ .bound b := by
    refine notBound_of ?_ b
    have : ∀ pl : Place, s.bundle? pl = none := by decide +kernel
    exact this pl
  refine ⟨s, _, ⟨by decide, by decide, by decide, by decide, fun pl => ?_, fun pl => ?_, fun b hb' => ?_,
    fun pl b h => absurd h (hb pl b), fun pl b h => absurd h (hb pl b), fun j x hx => ?_⟩, rfl, by decide⟩
  · rw [hn pl]
    constructor
    · intro h
      cases h
    · rintro (h | h) <;> cases h
  · rw [hn pl]
    constructor
    · intro h
      have : s.queue = [.lifted { strapped with number := some 0xFFFFFFFF }] := rfl
      rw [this] at h
      simp at h
    · rintro (h | h) <;> cases h
  · have : b = { strapped with number := some 0xFFFFFFFF } := by simpa [s] using hb'
    rw [this]
    rfl
  · have hl : s.queue.map s.numberOf? ++ [some s.nextNumber] = [some 0xFFFFFFFF#32, some 1#32] := by decide +kernel
    rw [hl] at hx ⊢
    match j with
    | 0 =>
      obtain rfl : some 0xFFFFFFFF#32 = x := by simpa using hx
      exact ⟨_, rfl, by decide, fun y hy => by
        obtain rfl : some 1#32 = y := by simpa using hy
        decide⟩
    | 1 =>
      obtain rfl : some 1#32 = x := by simpa using hx
      exact ⟨_, rfl, by decide, fun y hy => by simp at hy⟩
    | j + 2 => simp at hx

/-! ### The part as a whole -/

theorem witness_ReadStatusReportsThePart : ∃ s : State, s.executes 0x14 [] = true ∧ ∃ f, (s.port 1).state = .feeding f :=
  ⟨asked 0x14 [] (feeding { feed .suspended with stop := { hold := true, power := true } } [note 3 2]), by decide +kernel,
    _, rfl⟩

theorem witness_ClearCausesAndReleaseTransport :
    (∃ (s : State) (named : Byte), s.executes 0x15 [named] = true ∧ 7 < named.toNat) ∧
    (∃ (s : State) (named : Byte), s.executes 0x15 [named] = true ∧ named.toNat ≤ 7) ∧
    (∃ (s : State) (n : Byte), s.executes 0x16 [n] = true ∧ 3 < n.toNat) ∧
    (∃ (s : State) (n : Byte) (p : PortId), s.executes 0x16 [n] = true ∧ n.toNat = p.val ∧ (s.port p).state = .down) ∧
    (∃ (s : State) (n : Byte) (p : PortId), s.executes 0x16 [n] = true ∧ n.toNat = p.val ∧ (s.port p).state = .ready) ∧
    (∃ (s : State) (n : Byte) (p : PortId), s.executes 0x16 [n] = true ∧ n.toNat = p.val ∧
      ∃ f, (s.port p).state = .feeding f) ∧
    ∃ (s : State) (n : Byte) (p : PortId), s.executes 0x16 [n] = true ∧ n.toNat = p.val ∧
      ∃ cause, (s.port p).state = .locked cause :=
  ⟨⟨asked 0x15 [8] hall, 8, by decide +kernel, by decide⟩, ⟨asked 0x15 [7] hall, 7, by decide +kernel, by decide⟩,
    ⟨asked 0x16 [4] hall, 4, by decide +kernel, by decide⟩,
    ⟨asked 0x16 [3] State.reset, 3, 3, by decide +kernel, rfl, by decide +kernel⟩,
    ⟨asked 0x16 [0] hall, 0, 0, by decide +kernel, rfl, by decide +kernel⟩,
    ⟨asked 0x16 [1] (feeding (feed .active) []), 1, 1, by decide +kernel, rfl, feed .active, by decide +kernel⟩,
    asked 0x16 [2] (hall.setPort 2 { state := .locked .abortedFeeds, aborted := 2 }), 2, 2, by decide +kernel, rfl,
    .abortedFeeds, by decide +kernel⟩

theorem witness_AttentionFollowsItsConditions :
    (∃ s : State, s.resetLine = true) ∧
    (∃ s : State, s.running = true ∧ ∃ b rest, s.queue = .lifted b :: rest) ∧
    ∃ s : State, s.running = true ∧ s.warning = true :=
  ⟨⟨{ hall with resetLine := true, warning := true }, rfl⟩, ⟨{ hall with queue := [.lifted strapped] }, rfl, _, _, rfl⟩,
    { hall with warning := true }, rfl, rfl⟩

/-! ### Transport Ports and feeds -/

/-- The premise that a COLLECTABLE bundle is bound nowhere, from a test of every pocket. -/
theorem notCollectable_of {s : State} (h : ∀ pl : Place, ((s.bundle? pl).all fun b => b.state ≠ .collectable) = true)
    (pl : Place) (b : Bundle) (hb : s.binding pl = .bound b) : b.state ≠ .collectable := by
  have := h pl
  rw [State.bundle?_eq_some.2 hb] at this
  simpa using this

theorem witness_HelloBringsUpThePort :
    (∃ (s : State) (p : PortId), s.running = true ∧ s.LostInRange ∧
      (∀ pl b, s.binding pl = .bound b → b.state ≠ .collectable) ∧
      ∃ f r, (s.port p).state = .feeding f ∧ s.record? f.slot = some r ∧ r.state ≠ .sealed ∧ r.lost = 65535) ∧
    ∃ (s : State) (p : PortId), s.running = true ∧ s.LostInRange ∧
      (∀ pl b, s.binding pl = .bound b → b.state ≠ .collectable) ∧ (∀ f, (s.port p).state ≠ .feeding f) ∧
      s.voidsAt p 0 ≠ [] := by
  let r : DepositRecord := { deposit 5 .counting with feeding := fedBy 1, pending := 1, lost := 65535 }
  let s : State := ((feeding (feed .active) [note 0 2]).setRecord 5 (some r)).setBinding tp1p2
    (.bound (bundle tp1p2 .opened 0 1 [share 5 0 1]))
  let s' : State := hall.setBinding tp1p2 (.bound (bundle tp1p2 (.unconfirmed .opened) 7 0 [share 5 7 0]))
  exact ⟨⟨s, 1, rfl, lostInRange_of (by decide +kernel), notCollectable_of (by decide +kernel), feed .active, r,
      by decide +kernel, by decide +kernel, by decide, rfl⟩,
    s', 1, rfl, lostInRange_of (by decide +kernel), notCollectable_of (by decide +kernel), notFeeding_of (by decide +kernel),
    by decide +kernel⟩

/-- TP1's P2 with an UNCONFIRMED bundle, its port READY. -/
def unconfirmed (prior : PriorState) (queue : List QueueEntry) : State :=
  { hall.setBinding tp1p2 (.bound { bundle tp1p2 (.unconfirmed prior) 7 0 [share 5 7 0] with number := some 5 }) with
    queue := queue }

theorem witness_CensusDecidesByPriorStateAndPresence :
    ∀ prior ∈ [PriorState.opened, .filled, .closing, .completeWaiting, .strapping],
    ∀ queue ∈ [[], List.replicate 16 (QueueEntry.lifted strapped)], ∀ presence ∈ [0#8, 4#8],
    let s := unconfirmed prior queue
    ∃ b : Bundle, s.binding tp1p2 = .bound b ∧ b.state = .unconfirmed prior ∧ b.number = some 5 ∧
      (s.port (placePort tp1p2)).isDown = false ∧
      (presence.getLsbD (placePocket tp1p2).val = true ↔ presence = 4) := by
  intro prior hp queue hq presence hx s
  refine ⟨{ bundle tp1p2 (.unconfirmed prior) 7 0 [share 5 7 0] with number := some 5 }, ?_, rfl, rfl, ?_, ?_⟩
  · simp [s, unconfirmed, State.binding, State.setBinding]
  · have h : s.port (placePort tp1p2) = hall.port 1 := by
      simp only [s, unconfirmed, State.port, State.setBinding]
      rfl
    rw [h]
    decide +kernel
  · simp only [List.mem_cons, List.not_mem_nil, or_false] at hx
    rcases hx with rfl | rfl <;> decide

theorem named_alone (r : DepositRecord) (h : r.reference = 5) : (withDeposit r).Named 5 5 r := by
  have hr (j : Slot) : (withDeposit r).record? j = if j = 5 then some r else none := by
    have h0 : hall.record? j = none := by simp [hall, State.reset, State.record?]
    rw [withDeposit, State.record?_setRecord, h0]
  refine ⟨by rw [hr]; rfl, h, by decide, fun j r' hj _ => ?_⟩
  rw [hr] at hj
  by_contra hne
  rw [if_neg hne] at hj
  cases hj

theorem witness_FeedStartRefusesInOrder :
    (∃ (s : State) (p : PortId), s.running = true ∧ (s.port p).state = .down) ∧
    (∃ (s : State) (p : PortId), s.running = true ∧ ∃ cause, (s.port p).state = .locked cause) ∧
    (∃ (s : State) (p : PortId), s.running = true ∧ ∃ f, (s.port p).state = .feeding f) ∧
    (∃ (s : State) (p : PortId), s.running = true ∧ (s.port p).state = .ready ∧ s.warning = true) ∧
    (∃ (s : State) (p : PortId), s.running = true ∧ (s.port p).state = .ready ∧ s.warning = false ∧
      s.configFault = true) ∧
    (∃ (s : State) (p : PortId) (ref : Reference), s.running = true ∧ (s.port p).state = .ready ∧
      s.warning = false ∧ s.configFault = false ∧ ref ≠ 0 ∧ s.Unnamed ref ∧ (s.port p).refused = 4) ∧
    (∃ (s : State) (p : PortId) (ref : Reference) (i : Slot) (r : DepositRecord), s.running = true ∧
      (s.port p).state = .ready ∧ s.warning = false ∧ s.configFault = false ∧ s.Named ref i r ∧ r.state = .held) ∧
    (∃ (s : State) (p : PortId) (ref : Reference) (i : Slot) (r : DepositRecord), s.running = true ∧
      (s.port p).state = .ready ∧ s.warning = false ∧ s.configFault = false ∧ s.Named ref i r ∧ r.state ≠ .held ∧
      r.state ≠ .sealed ∧ ∀ x : PortId, r.feeding[x.val] = true) ∧
    ∃ (s : State) (p : PortId) (ref : Reference) (i : Slot) (r : DepositRecord), s.running = true ∧
      (s.port p).state = .ready ∧ s.warning = false ∧ s.configFault = false ∧ s.Named ref i r ∧
      r.state = .discrepant ∧ r.reopens = 3 ∧ ∃ x : PortId, r.feeding[x.val] = false :=
  ⟨⟨State.reset, 0, rfl, by decide +kernel⟩,
    ⟨hall.setPort 0 { state := .locked .referenceAttempts, refused := 5 }, 0, rfl, .referenceAttempts, by decide +kernel⟩,
    ⟨feeding (feed .active) [], 1, rfl, feed .active, by decide +kernel⟩,
    ⟨{ hall with warning := true }, 0, rfl, by decide +kernel, rfl⟩,
    ⟨{ hall with configFault := true }, 0, rfl, by decide +kernel, rfl, rfl⟩,
    ⟨hall.setPort 0 { state := .ready, refused := 4 }, 0, 5, rfl, by decide +kernel, rfl, rfl, by decide,
      unnamed_of (by decide +kernel), by decide +kernel⟩,
    ⟨withDeposit (deposit 5 .held), 0, 5, 5, _, rfl, by decide +kernel, rfl, rfl, named_alone _ rfl, rfl⟩,
    ⟨withDeposit { deposit 5 .counting with feeding := Vector.replicate 4 true }, 0, 5, 5, _, rfl, by decide +kernel, rfl,
      rfl, named_alone _ rfl, by decide, by decide, by decide +kernel⟩,
    withDeposit { settled .discrepant with reopens := 3 }, 0, 5, 5, _, rfl, by decide +kernel, rfl, rfl,
    named_alone _ rfl, rfl, rfl, 0, by decide +kernel⟩

theorem witness_FeedStartOpensAFeed :
    ∀ r ∈ [deposit 5 .declared, { deposit 5 .counting with feeding := fedBy 3 }, { settled .balanced with reopens := 2 }],
    ∃ (s : State) (p : PortId) (ref : Reference) (i : Slot), s.running = true ∧ (s.port p).state = .ready ∧
      s.warning = false ∧ s.configFault = false ∧ s.Named ref i r ∧ (∃ x : PortId, r.feeding[x.val] = false) ∧
      (r.state = .declared ∨ r.state = .counting ∨ (r.state = .balanced ∨ r.state = .discrepant) ∧ r.reopens < 3) := by
  intro r hr
  have h0 : ((withDeposit r).port 0).state = .ready := by
    have h : (withDeposit r).port 0 = hall.port 0 := by simp only [withDeposit, State.port, State.setRecord]
    rw [h]
    decide +kernel
  refine ⟨withDeposit r, 0, 5, 5, rfl, h0, rfl, rfl, ?_⟩
  simp only [List.mem_cons, List.not_mem_nil, or_false] at hr
  rcases hr with rfl | rfl | rfl <;> exact ⟨named_alone _ rfl, ⟨0, by decide +kernel⟩, by decide⟩

theorem witness_FeedEndIsAnswered :
    (∃ (s : State) (p : PortId), s.running = true ∧ (s.port p).state = .down) ∧
    (∃ (s : State) (p : PortId), s.running = true ∧ (s.port p).state = .ready) ∧
    (∃ (s : State) (p : PortId) (f : Feed), s.running = true ∧ (s.port p).state = .feeding f ∧ f.state = .jammed) ∧
    (∃ (s : State) (p : PortId) (f : Feed), s.running = true ∧ (s.port p).state = .feeding f ∧ f.state = .ending 7) ∧
    (∃ (s : State) (p : PortId) (f : Feed), s.running = true ∧ (s.port p).state = .feeding f ∧ f.state = .suspended ∧
      (s.port p).window ≠ []) ∧
    (∃ (s : State) (p : PortId) (f : Feed) (r : DepositRecord) (count : BitVec 16), s.running = true ∧
      (s.port p).state = .feeding f ∧ f.state = .active ∧ (s.port p).window = [] ∧ s.record? f.slot = some r ∧
      count.toNat = f.reported ∧ f.reported < 65535) ∧
    ∃ (s : State) (p : PortId) (f : Feed) (r : DepositRecord) (count : BitVec 16), s.running = true ∧
      (s.port p).state = .feeding f ∧ f.state = .active ∧ (s.port p).window = [] ∧ s.record? f.slot = some r ∧
      ¬ (count.toNat = f.reported ∧ f.reported < 65535) := by
  let f (n : Nat) : Feed := { feed .active with reported := n }
  let r : DepositRecord := { deposit 5 .counting with feeding := fedBy 1 }
  exact ⟨⟨State.reset, 0, rfl, by decide +kernel⟩, ⟨hall, 0, rfl, by decide +kernel⟩,
    ⟨feeding (feed .jammed) [], 1, feed .jammed, rfl, by decide +kernel, rfl⟩,
    ⟨feeding (feed (.ending 7)) [note 0 1], 1, feed (.ending 7), rfl, by decide +kernel, rfl⟩,
    ⟨feeding (feed .suspended) [note 0 1], 1, feed .suspended, rfl, by decide +kernel, rfl, by decide +kernel⟩,
    ⟨feeding (f 65534) [], 1, f 65534, r, 65534, rfl, by decide +kernel, rfl, by decide +kernel, by decide +kernel, rfl,
      by decide⟩,
    feeding (f 65535) [], 1, f 65535, r, 65535, rfl, by decide +kernel, rfl, by decide +kernel, by decide +kernel,
    by decide⟩

/-- A feed with a full window, of which two entries are for P0. -/
def busy : State :=
  feeding { feed .suspended with stop := { power := true } }
    [note 255 2, note 0 0, note 1 1, note 2 3, note 3 4, note 4 0, note 5 2, note 6 7]

theorem witness_PortLawIsKept : ∃ s t : State, s.PortLaw ∧ step s = .next t ∧ (s.port 1).window.length = 8 := by
  let s : State := { busy with pending := [.jamCleared 1] }
  have hall1 (p : PortId) (h : p ≠ 1) : s.port p = { state := .ready } := by
    have : ∀ p : PortId, p ≠ 1 → s.port p = { state := .ready } := by decide +kernel
    exact this p h
  refine ⟨s, _, fun p => ?_, rfl, by decide +kernel⟩
  by_cases h : p = 1
  · subst h
    have hf : (s.port 1).state = .feeding { feed .suspended with stop := { power := true } } := by decide +kernel
    refine ⟨by decide +kernel, by decide +kernel, by decide +kernel, by decide +kernel, fun _ => by decide +kernel,
      by decide +kernel, by decide +kernel, fun e he i hi => ⟨_, hf, ?_⟩, fun f h => ?_⟩
    · have : ∀ e ∈ (s.port 1).window, e.slot = some 5 := by decide +kernel
      exact Option.some.inj ((this e he).symm.trans hi)
    · rw [hf] at h
      cases h
      decide
  · rw [hall1 p h]
    refine ⟨by decide, by decide, by decide, by decide, fun _ => by decide, by decide, by decide, fun e he => ?_,
      fun f h => ?_⟩
    · cases he
    · cases h

/-! ### Note routing and pocket binding -/

theorem witness_NoteReportWithoutAFeedGoesToP0 :
    (∃ (s : State) (p : PortId) (seq index fitness verdict : Byte), s.running = true ∧
      noteFieldsValid index fitness verdict = true ∧ (∀ f, (s.port p).state ≠ .feeding f) ∧
      (s.port p).state ≠ .down ∧ (s.port p).window.length = 8 ∧ (s.port p).WindowRefuses seq) ∧
    ∃ (s : State) (p : PortId) (seq index fitness verdict : Byte), s.running = true ∧
      noteFieldsValid index fitness verdict = true ∧ (∀ f, (s.port p).state ≠ .feeding f) ∧
      (s.port p).state ≠ .down ∧ (s.port p).window.length = 7 ∧ ¬ (s.port p).WindowRefuses seq := by
  let w (n : Nat) : List Entry := (List.range n).map fun k => loose (BitVec.ofNat 8 k)
  let s (n : Nat) : State := hall.setPort 2 { state := .ready, window := w n, p0 := { inFlight := n } }
  refine ⟨⟨s 8, 2, 8, 0x0F, 1, 2, rfl, by decide, notFeeding_of (by decide +kernel), by decide +kernel,
      by decide +kernel, Or.inl (by decide +kernel)⟩,
    s 7, 2, 255, 11, 0, 0, rfl, by decide, notFeeding_of (by decide +kernel), by decide +kernel, by decide +kernel, ?_⟩
  have h7 : (s 7).port 2 = { state := .ready, window := w 7, p0 := { inFlight := 7 } } := by decide +kernel
  rw [h7]
  rintro (h | ⟨e, he, hs⟩)
  · exact absurd h (by decide)
  · have : ∀ e ∈ w 7, e.seq ≠ 255 := by decide
    exact this e he hs

/-- A report with the expected sequence is in order on an empty window. -/
theorem inOrder_of {q : Port} {f : Feed} {seq : Byte} (hs : f.state = .active ∨ f.state = .suspended)
    (hw : q.window = []) (he : seq = f.expected) : ¬ q.OutOfOrder f seq := by
  rcases hs with hs | hs <;> simp [Port.OutOfOrder, hs, Port.WindowRefuses, hw, he]

theorem witness_NoteReportTurnedAwayGoesToItsStack :
    (∃ (s : State) (p : PortId) (seq index fitness verdict : Byte) (f : Feed) (r : DepositRecord) (k : Pocket),
      s.running = true ∧ noteFieldsValid index fitness verdict = true ∧ (s.port p).state = .feeding f ∧
      s.record? f.slot = some r ∧ ¬ (s.port p).OutOfOrder f seq ∧ k = 1 ∧
      TurnedAway s.config f r (reportedIndex index) (reportedFitness fitness) verdict k) ∧
    (∃ (s : State) (p : PortId) (seq index fitness verdict : Byte) (f : Feed) (r : DepositRecord) (k : Pocket),
      s.running = true ∧ noteFieldsValid index fitness verdict = true ∧ (s.port p).state = .feeding f ∧
      s.record? f.slot = some r ∧ ¬ (s.port p).OutOfOrder f seq ∧ k = 0 ∧
      TurnedAway s.config f r (reportedIndex index) (reportedFitness fitness) verdict k) ∧
    (∃ (s : State) (p : PortId) (seq index fitness verdict : Byte) (f : Feed) (r : DepositRecord) (j : DenomIndex)
      (bf : BundleFitness),
      s.running = true ∧ noteFieldsValid index fitness verdict = true ∧ (s.port p).state = .feeding f ∧
      s.record? f.slot = some r ∧ ¬ (s.port p).OutOfOrder f seq ∧ f.state = .active ∧ verdict.toNat = 0 ∧
      reportedIndex index = some j ∧ (s.config.entry r.currency j).face ≠ 0 ∧
      (s.config.entry r.currency j).route (reportedFitness fitness) = some bf ∧ r.CellFull j (reportedFitness fitness)) ∧
    ∃ (s : State) (p : PortId) (seq index fitness verdict : Byte) (f : Feed) (r : DepositRecord) (j : DenomIndex)
      (bf : BundleFitness),
      s.running = true ∧ noteFieldsValid index fitness verdict = true ∧ (s.port p).state = .feeding f ∧
      s.record? f.slot = some r ∧ ¬ (s.port p).OutOfOrder f seq ∧ f.state = .active ∧ verdict.toNat = 0 ∧
      reportedIndex index = some j ∧ (s.config.entry r.currency j).face ≠ 0 ∧
      (s.config.entry r.currency j).route (reportedFitness fitness) = some bf ∧
      ¬ r.CellFull j (reportedFitness fitness) ∧
      ∀ pl, placePort pl = p → ¬ s.Eligible pl (soughtKey f.slot r j bf) f.slot ∧ s.binding pl ≠ .unbound := by
  let r : DepositRecord := { deposit 5 .counting with feeding := fedBy 1 }
  let full : DepositRecord := { r with cells := r.cells.set 1 { fit := 65534 }, pending := 1 }
  let s (st : FeedState) : State := feeding (feed st) []
  let shut : State := { s .active with bindings := Vector.replicate 24 .blocked }
  have order (st : FeedState) (h : st = .active ∨ st = .suspended) : ¬ ((s st).port 1).OutOfOrder (feed st) 0 :=
    inOrder_of h (by simp [s, feeding, State.port, State.setPort]) rfl
  refine ⟨⟨s .active, 1, 0, 0x0F, 0, 1, feed .active, r, 1, rfl, by decide, by decide +kernel, by decide +kernel,
      order _ (Or.inl rfl), rfl, by simp [TurnedAway, feed]⟩,
    ⟨s .suspended, 1, 0, 0, 0, 0, feed .suspended, r, 0, rfl, by decide, by decide +kernel, by decide +kernel,
      order _ (Or.inr rfl), rfl, by simp [TurnedAway, feed]⟩,
    ⟨(s .active).setRecord 5 (some full), 1, 0, 1, 0, 0, feed .active, full, 1, .fit, rfl, by decide, by decide +kernel,
      by decide +kernel, inOrder_of (Or.inl rfl) (by simp [s, feeding, State.port, State.setPort, State.setRecord]) rfl, rfl, rfl, rfl, by decide +kernel, by decide +kernel, ?_⟩,
    shut, 1, 0, 1, 0, 0, feed .active, r, 1, .fit, rfl, by decide, by decide +kernel,
    by decide +kernel, inOrder_of (Or.inl rfl) (by simp [shut, s, feeding, State.port, State.setPort]) rfl, rfl, rfl, rfl,
    by decide +kernel, by decide +kernel, ?_, fun pl _ => ?_⟩
  · unfold DepositRecord.CellFull
    decide +kernel
  · unfold DepositRecord.CellFull
    decide +kernel
  · have hb : shut.binding pl = .blocked := by simp [shut, State.binding]
    rw [hb]
    refine ⟨fun ⟨b, h, _⟩ => ?_, by decide⟩
    rw [hb] at h
    cases h

theorem witness_NoteReportIsReservedInABundle :
    ∀ bound : Bool, ∃ (s : State) (p : PortId) (seq index fitness verdict : Byte) (f : Feed) (r : DepositRecord)
      (j : DenomIndex) (bf : BundleFitness) (pl : Place),
      s.running = true ∧ noteFieldsValid index fitness verdict = true ∧ (s.port p).state = .feeding f ∧
      s.record? f.slot = some r ∧ ¬ (s.port p).OutOfOrder f seq ∧ f.state = .active ∧ verdict.toNat = 0 ∧
      reportedIndex index = some j ∧ (s.config.entry r.currency j).face ≠ 0 ∧
      (s.config.entry r.currency j).route (reportedFitness fitness) = some bf ∧
      ¬ r.CellFull j (reportedFitness fitness) ∧ placePort pl = p ∧
      (bound = true → s.Eligible pl (soughtKey f.slot r j bf) f.slot ∧
        ∀ x, placePort x = p → x < pl → ¬ s.Eligible x (soughtKey f.slot r j bf) f.slot) ∧
      (bound = false → (∀ x, placePort x = p → ¬ s.Eligible x (soughtKey f.slot r j bf) f.slot) ∧
        s.binding pl = .unbound ∧ ∀ x, placePort x = p → x < pl → s.binding x ≠ .unbound) := by
  intro bound
  let r : DepositRecord := { deposit 5 .counting with feeding := fedBy 1 }
  let l : List Contribution := [share 0 14 0, share 1 14 0, share 2 14 0, share 3 14 0, share 4 14 0, share 6 14 0,
    share 7 14 0, share 5 0 1]
  let b : Bundle := bundle 11 .opened 98 1 l
  let s : State := { feeding (feed .active) [] with
    bindings := (Vector.replicate 24 .blocked).set 11 (if bound then .bound b else .unbound) }
  have hx (x : Place) (h : x ≠ 11) : s.binding x = .blocked := by
    have : x.val ≠ 11 := fun e => h (Fin.ext e)
    simp [s, State.binding, Ne.symm this]
  have h11 : s.binding 11 = if bound then .bound b else .unbound := by simp [s, State.binding]
  have shut (x : Place) (h : x ≠ 11) (key : BundleKey) : ¬ s.Eligible x key 5 := fun ⟨b, h', _⟩ => by
    rw [hx x h] at h'
    cases h'
  refine ⟨s, 1, 0, 1, 0, 0, feed .active, r, 1, .fit, 11, rfl, by decide, ?_, ?_, ?_, rfl, rfl, rfl,
    ?_, ?_, ?_, by decide, fun hb => ⟨⟨b, ?_, rfl, rfl, by decide, Or.inl ⟨share 5 0 1, by decide, rfl⟩⟩,
      fun x _ hlt => shut x (ne_of_lt hlt) _⟩, fun hb => ⟨fun x _ he => ?_, ?_, fun x _ hlt => ?_⟩⟩
  · have h : s.port 1 = (feeding (feed .active) []).port 1 := by simp only [s, State.port]
    rw [h]
    decide +kernel
  · have h : s.record? 5 = (feeding (feed .active) []).record? 5 := by simp only [s, State.record?]
    rw [show (feed .active).slot = 5 from rfl, h]
    decide +kernel
  · exact inOrder_of (Or.inl rfl) (by simp [s, feeding, State.port, State.setPort]) rfl
  · have : (cfg.entry 0 1).face ≠ 0 := by decide +kernel
    exact this
  · have : (cfg.entry 0 1).route .fit = some .fit := by decide +kernel
    exact this
  · unfold DepositRecord.CellFull
    decide +kernel
  · rw [h11, hb]
    rfl
  · by_cases e : x = 11
    · obtain ⟨b', h', _⟩ := he
      rw [e, h11, hb] at h'
      cases h'
    · exact shut x e _ he
  · rw [h11, hb]
    rfl
  · rw [hx x (ne_of_lt hlt)]
    decide

/-! ### Stacking, credit and jams -/

theorem witness_StackedCreditsASortedNote :
    ∀ ends drains room : Bool, ∃ (s : State) (p : PortId) (e : Entry) (pl : Place) (f : Feed) (r : DepositRecord)
      (b : Bundle) (j : DenomIndex),
      s.running = true ∧ (s.port p).state = .feeding f ∧ e ∈ (s.port p).window ∧ e.slot = some f.slot ∧
      placeOf p e.pocket = some pl ∧ e.index = some j ∧ s.record? f.slot = some r ∧ s.binding pl = .bound b ∧
      ((s.port p).window.Pairwise fun x y => x.seq ≠ y.seq) ∧
      EndsAtNext f (s.port p).window = ends ∧ b.DrainsAtNext = drains ∧
      (decide (s.queue.length < 16) && decide (s.waiting = [])) = room := by
  have h : ∀ ends drains room : Bool,
      let w := if ends then [note 20 2] else [note 20 2, note 21 1]
      let f := feed (if ends then .ending 1 else .active)
      let b := bundle tp1p2 (if drains then .filled else .opened) 99 1 [share 5 99 1]
      let s : State := { (feeding f w).setBinding tp1p2 (.bound b) with
        queue := if room then List.replicate 15 (.lifted strapped) else List.replicate 16 (.lifted strapped) }
      s.running = true ∧ (s.port 1).state = .feeding f ∧ note 20 2 ∈ (s.port 1).window ∧
      s.record? 5 = some { deposit 5 .counting with feeding := fedBy 1, pending := 1 } ∧
      s.binding tp1p2 = .bound b ∧ ((s.port 1).window.Pairwise fun x y => x.seq ≠ y.seq) ∧
      EndsAtNext f (s.port 1).window = ends ∧ b.DrainsAtNext = drains ∧
      (decide (s.queue.length < 16) && decide (s.waiting = [])) = room := by decide +kernel
  intro ends drains room
  obtain ⟨h1, h2, h3, h4, h5, h6, h7, h8, h9⟩ := h ends drains room
  exact ⟨_, 1, note 20 2, tp1p2, _, _, _, 1, h1, h2, h3, rfl, by decide, rfl, h4, h5, h6, h7, h8, h9⟩

/-- A feed cannot end where its port has none, or where the feed is not ENDING. -/
theorem noEnd_of {q : Port} (h : (q.feed?.all fun f => EndsAtNext f q.window = false) = true) (f : Feed)
    (hf : q.state = .feeding f) : EndsAtNext f q.window = false := by
  simpa [Port.feed?, hf] using h

theorem witness_StackedCreditsAStackedNote :
    (∃ (s : State) (p : PortId) (e : Entry), s.running = true ∧ (s.port p).state ≠ .down ∧ e ∈ (s.port p).window ∧
      ((s.port p).window.Pairwise fun x y => x.seq ≠ y.seq) ∧
      (∀ f, (s.port p).state = .feeding f → EndsAtNext f (s.port p).window = false) ∧ e.slot = none ∧ e.pocket = 0 ∧
      (s.port p).p0.fill = 65535) ∧
    (∃ (s : State) (p : PortId) (e : Entry) (f : Feed) (r : DepositRecord), s.running = true ∧
      (s.port p).state ≠ .down ∧ e ∈ (s.port p).window ∧ ((s.port p).window.Pairwise fun x y => x.seq ≠ y.seq) ∧
      e.slot = none ∧ e.pocket = 0 ∧ (s.port p).state = .feeding f ∧ s.record? f.slot = some r ∧
      EndsAtNext f (s.port p).window = true) ∧
    (∃ (s : State) (p : PortId) (e : Entry) (f : Feed) (i : Slot) (r : DepositRecord), s.running = true ∧
      (s.port p).state ≠ .down ∧ e ∈ (s.port p).window ∧ ((s.port p).window.Pairwise fun x y => x.seq ≠ y.seq) ∧
      (s.port p).state = .feeding f ∧ e.slot = some i ∧ s.record? i = some r ∧ i ≠ f.slot ∧
      EndsAtNext f (s.port p).window = false) ∧
    ∀ k : Pocket, k.val < 2 → ∀ index : Option DenomIndex, ∀ st : FeedState, ∃ (s : State) (p : PortId) (e : Entry)
      (f : Feed) (i : Slot) (r : DepositRecord), s.running = true ∧ (s.port p).state ≠ .down ∧
      e ∈ (s.port p).window ∧ ((s.port p).window.Pairwise fun x y => x.seq ≠ y.seq) ∧
      (s.port p).state = .feeding f ∧ f.state = st ∧ e.slot = some i ∧ s.record? i = some r ∧ i = f.slot ∧
      e.pocket = k ∧ e.index = index := by
  have ready (q : Port) (h : q.isDown = false) : q.state ≠ .down := fun e => by simp [Port.isDown, e] at h
  let s0 : State := hall.setPort 1 { state := .ready, window := [loose 9], p0 := { fill := 65535, inFlight := 1 } }
  refine ⟨⟨s0, 1, loose 9, rfl, ready _ (by decide +kernel), by decide +kernel, by decide +kernel,
    noEnd_of (by decide +kernel), rfl, rfl, by decide +kernel⟩,
    ⟨feeding (feed (.ending 1)) [loose 9], 1, loose 9, feed (.ending 1), { deposit 5 .counting with feeding := fedBy 1 },
      rfl, ready _ (by decide +kernel), by decide +kernel, by decide +kernel, rfl, rfl, by decide +kernel,
      by decide +kernel, by decide +kernel⟩,
    ⟨(feeding (feed .active) [{ note 9 1 with slot := some 6 }]).setRecord 6 (some (deposit 6 .counting)), 1,
      { note 9 1 with slot := some 6 }, feed .active, 6, deposit 6 .counting,
      rfl, ready _ (by decide +kernel), by decide +kernel, by decide +kernel, by decide +kernel, rfl, by decide +kernel,
      by decide, by decide +kernel⟩, fun k hk index st => ?_⟩
  let e : Entry := { note 7 k with index := index }
  let q : Port := { state := .feeding (feed st), window := [e], p0 := { inFlight := 1 }, p1 := { inFlight := 1 } }
  let s : State := (withDeposit { deposit 5 .counting with feeding := fedBy 1 }).setPort 1 q
  have hq : s.port 1 = q := by simp [s, State.port, State.setPort]
  have hr : s.record? 5 = some { deposit 5 .counting with feeding := fedBy 1 } := by
    have h : s.record? 5 = (withDeposit { deposit 5 .counting with feeding := fedBy 1 }).record? 5 := by
      simp only [s, State.record?, State.setPort]
    rw [h, withDeposit, State.record?_setRecord_self]
  refine ⟨s, 1, e, feed st, 5, _, rfl, ?_, ?_, ?_, ?_, rfl, rfl, hr, rfl, rfl, rfl⟩ <;> rw [hq]
  · exact ready _ rfl
  · exact List.mem_singleton.2 rfl
  · exact List.pairwise_singleton _ _

theorem witness_StackedOutOfPlaceMarksThePocket :
    (∃ (s : State) (p : PortId) (seq : Byte), s.running = true ∧ (s.port p).state ≠ .down ∧
      (∀ e ∈ (s.port p).window, e.seq ≠ seq) ∧ placeOf p 2 = some tp1p2 ∧ placeOf p 7 = some 11 ∧
      s.binding tp1p2 = .bound (bundle tp1p2 .strapping 20 0 []) ∧ s.binding 11 = .unbound) ∧
    (∀ st ∈ [FeedState.active, .suspended, .jammed, .ending 2], ∀ jams < 3, ∀ k ∈ [(0 : Pocket), 1, 3, 7],
      ∃ (s : State) (p : PortId) (e : Entry) (f : Feed), s.running = true ∧ (s.port p).state ≠ .down ∧
      e ∈ (s.port p).window ∧ e.pocket ≠ k ∧ (s.port p).state = .feeding f ∧ f.state = st ∧ f.jams = jams ∧
      s.LostInRange ∧ f.lost ≤ 65535 ∧ (s.port p).window.Pairwise fun x y => x.seq ≠ y.seq) ∧
    ∃ (s : State) (p : PortId) (k : Pocket) (e : Entry), s.running = true ∧ (s.port p).state ≠ .down ∧
      e ∈ (s.port p).window ∧ e.pocket ≠ k ∧ ((s.port p).window.Pairwise fun x y => x.seq ≠ y.seq) ∧
      (∀ f, (s.port p).state ≠ .feeding f) ∧ e.slot = none ∧ e.pocket = 0 ∧ placeOf p k = some tp1p2 := by
  have up (q : Port) (h : q.isDown = false) : q.state ≠ .down := fun e => by simp [Port.isDown, e] at h
  let s1 : State := hall.setBinding tp1p2 (.bound (bundle tp1p2 .strapping 20 0 []))
  let s3 : State := hall.setPort 1 { state := .ready, window := [loose 9, loose 10], p0 := { inFlight := 2 } }
  have h : ∀ st ∈ [FeedState.active, .suspended, .jammed, .ending 2], ∀ jams < 3,
      let s : State := feeding { feed st with lost := 65535, jams := jams } [note 20 2, note 21 0]
      (s.port 1).isDown = false ∧ note 20 2 ∈ (s.port 1).window ∧
      (s.port 1).state = .feeding { feed st with lost := 65535, jams := jams } ∧
      (∀ j : Slot, ((s.record? j).all fun r => r.lost ≤ 65535) = true) ∧
      (s.port 1).window.Pairwise fun x y => x.seq ≠ y.seq := by decide +kernel
  refine ⟨⟨s1, 1, 20, rfl, by decide +kernel, by decide +kernel, by decide, by decide, by decide +kernel,
      by decide +kernel⟩, fun st hst jams hj k hk => ?_,
    s3, 1, 2, loose 9, rfl, up _ (by decide +kernel), by decide +kernel, by decide, by decide +kernel,
    notFeeding_of (by decide +kernel), rfl, rfl, by decide⟩
  obtain ⟨h1, h2, h3, h4, h5⟩ := h st hst jams hj
  have hne : ∀ k ∈ [(0 : Pocket), 1, 3, 7], (note 20 2).pocket ≠ k := by decide
  exact ⟨_, 1, note 20 2, _, rfl, up _ h1, h2, hne k hk, h3, rfl, rfl, lostInRange_of h4, le_rfl, h5⟩

theorem witness_JamActsByTheFeed :
    (∃ (s : State) (p : PortId), s.running = true ∧ s.LostInRange ∧ ∀ f, (s.port p).state ≠ .feeding f) ∧
    ∀ jams < 3, ∃ (s : State) (p : PortId) (f : Feed), s.running = true ∧ s.LostInRange ∧
      (s.port p).state = .feeding f ∧ f.lost ≤ 65535 ∧ f.state = .active ∧ f.jams = jams := by
  have h : ∀ jams < 3,
      let s : State := feeding { feed .active with jams := jams } [note 20 2]
      s.running = true ∧ (∀ j : Slot, ((s.record? j).all fun r => r.lost ≤ 65535) = true) ∧
      (s.port 1).state = .feeding { feed .active with jams := jams } := by decide +kernel
  refine ⟨⟨hall, 1, rfl, lostInRange_of (by decide +kernel), notFeeding_of (by decide +kernel)⟩, fun jams hj => ?_⟩
  obtain ⟨h1, h2, h3⟩ := h jams hj
  exact ⟨_, 1, { feed .active with jams := jams }, h1, lostInRange_of h2, h3, by simp [feed, Feed.opened], rfl, rfl⟩

theorem witness_DeclaredJamsStopTheTransport : ∃ (s : State) (p : PortId) (f : Feed), s.running = true ∧
    s.LostInRange ∧ (s.port p).state = .feeding f ∧ f.lost ≤ 65535 ∧ f.state = .ending 2 ∧
    readMessage p 0x14 [0] = none ∧ noteFieldsValid 0x0F 1 2 = true ∧ (s.port p).OutOfOrder f 0 ∧
    (∃ e, e ∈ (s.port p).window) ∧ (s.port p).window.Pairwise fun x y => x.seq ≠ y.seq :=
  ⟨feeding (feed (.ending 2)) [note 0 2, note 1 1], 1, feed (.ending 2), rfl, lostInRange_of (by decide +kernel),
    by decide +kernel, by decide, rfl, by decide +kernel, by decide, trivial, ⟨note 0 2, by decide +kernel⟩,
    by decide +kernel⟩

theorem witness_DiscardsAndExpiriesWithoutAFeed :
    (∃ (p : PortId) (type : Byte) (body : List Byte) (c : Instr), readMessage p type body = some c) ∧
    (∃ (s : State) (p : PortId) (e : Entry) (type : Byte) (body : List Byte), (∀ f, (s.port p).state ≠ .feeding f) ∧
      readMessage p type body = none ∧ e ∈ (s.port p).window ∧ s.running = true ∧ e.slot = none ∧ e.pocket = 0 ∧
      (s.port p).window.Pairwise fun x y => x.seq ≠ y.seq) ∧
    ∃ (s : State) (p : PortId) (seq : Byte), ∀ e ∈ (s.port p).window, e.seq ≠ seq :=
  ⟨⟨2, 0x13, [9, 7], .stacked 2 9 7, by decide +kernel⟩,
    ⟨hall.setPort 1 { state := .ready, window := [loose 9, loose 10], p0 := { inFlight := 2 } }, 1, loose 9, 0x13, [9, 8],
      notFeeding_of (by decide +kernel), by decide +kernel, by decide +kernel, rfl, rfl, rfl, by decide +kernel⟩,
    feeding (feed .active) [note 0 2], 1, 1, by decide +kernel⟩

theorem witness_JamClearedRestartsTheFeed :
    (∃ (s : State) (p : PortId), s.running = true ∧ s.LostInRange ∧
      ∀ f, (s.port p).state = .feeding f → f.state ≠ .jammed) ∧
    ∃ (s : State) (p : PortId) (f : Feed), s.running = true ∧ s.LostInRange ∧ (s.port p).state = .feeding f ∧
      f.state = .jammed ∧ f.lost ≤ 65535 := by
  refine ⟨⟨hall, 1, rfl, lostInRange_of (by decide +kernel), fun f h => absurd h (notFeeding_of (by decide +kernel) f)⟩,
    feeding { feed .jammed with stop := { hold := true }, jams := 2 } [note 20 2, note 21 0], 1,
    { feed .jammed with stop := { hold := true }, jams := 2 }, rfl, lostInRange_of (by decide +kernel), by decide +kernel,
    rfl, by decide⟩

/-! ### Power, timers and the whole part -/

theorem witness_IdleExpiryHoldsTheRecord :
    (∃ (s : State) (i : Slot), s.running = true ∧ ∀ r start, s.record? i = some r → r.idleSince = some start →
      s.idleLimit = 0) ∧
    ∃ (s : State) (i : Slot) (r : DepositRecord) (start : Nat), s.running = true ∧ s.record? i = some r ∧
      r.idleSince = some start ∧ s.idleLimit ≠ 0 := by
  refine ⟨⟨hall, 127, rfl, fun r start h => ?_⟩, withDeposit { deposit 5 .counting with idleSince := some 10 }, 5, _, 10,
    rfl, rfl, rfl, by decide +kernel⟩
  simp [hall, State.reset, State.record?] at h

theorem witness_PowerWarningStopsAndResumesFeeds :
    (∃ s : State, s.running = true ∧ s.warning = false) ∧ (∃ s : State, s.running = true ∧ s.warning = true ∧
      s.holdUp ≠ none) ∧ ∃ s : State, s.running = true ∧ s.warning = true ∧ s.holdUp = none :=
  ⟨⟨hall, rfl, rfl⟩, ⟨{ hall with warning := true, holdUp := some { start := 0, duration := 60 } }, rfl, rfl, by simp⟩,
    { hall with warning := true }, rfl, rfl, rfl⟩

theorem witness_HoldUpExpiryAbortsEveryFeed :
    (∃ s : State, s.running = true ∧ s.LostInRange ∧ s.holdUp = none) ∧
    ∃ (s : State) (h : HoldUpTimer) (f : Feed) (r : DepositRecord), s.running = true ∧ s.LostInRange ∧
      s.holdUp = some h ∧ (s.port 1).state = .feeding f ∧ s.record? f.slot = some r ∧ r.state ≠ .sealed := by
  let f : Feed := { feed .suspended with stop := { power := true } }
  let s : State := { feeding f [note 0 2, note 1 0] with warning := true, holdUp := some { start := 5, duration := 60 } }
  exact ⟨⟨hall, rfl, lostInRange_of (by decide +kernel), rfl⟩,
    s, { start := 5, duration := 60 }, f, { deposit 5 .counting with feeding := fedBy 1, pending := 1 }, rfl,
    lostInRange_of (by decide +kernel), rfl, by decide +kernel, by decide +kernel, by decide⟩

theorem witness_StoreSurvivesResetAndPowerFailure :
    (∃ (s : State) (c : Instr), (c = .resetLineAsserted ∨ c = .powerFailure) ∧ s.binding tp1p2 = .bound strapped ∧
      s.record? 5 = some (sealedWith 34)) ∧
    ∃ s : State, s.running = false ∧ ∀ c ∈ [Instr.powerWarningAsserted, .powerWarningDeasserted, .readStatus [],
      .hello 0 0], (∀ cause, c ≠ .startUp cause) ∧ c ≠ .resetLineAsserted ∧ c ≠ .powerFailure := by
  refine ⟨⟨(withDeposit (sealedWith 34)).setBinding tp1p2 (.bound strapped), .powerFailure, Or.inr rfl, by decide +kernel,
    by decide +kernel⟩, { hall with resetLine := true }, rfl, fun c hc => ?_⟩
  simp only [List.mem_cons, List.not_mem_nil, or_false] at hc
  rcases hc with rfl | rfl | rfl | rfl <;> simp

theorem witness_StartUpRecoversThePart :
    ∃ s : State, s.powered = false ∧ s.warning = true ∧ (∃ p : PortId, (deposit 5 .counting).feeding[p.val] = false) ∧
      s.record? 5 = some (deposit 5 .counting) ∧ s.binding tp1p2 = .bound (bundle tp1p2 .opened 1 1 [share 5 1 1]) :=
  ⟨{ (withDeposit (deposit 5 .counting)).setBinding tp1p2 (.bound (bundle tp1p2 .opened 1 1 [share 5 1 1])) with
      powered := false, warning := true }, rfl, rfl, ⟨0, by decide +kernel⟩, by decide +kernel, by decide +kernel⟩

/-- R160: a part that came out of the factory is started into the state of reset. -/
theorem witness_ResetMeetsTheLaws : ∃ (s t : State) (cause : StartCause), s.NothingHeld ∧ s.nextNumber ≠ 0 ∧
    s.powered = false ∧ exec (.startUp cause) s = .next t ∧ t = State.reset := by
  refine ⟨factoryNew, State.reset, .powerUp, ⟨fun i => ?_, fun pl b => ?_, rfl, rfl⟩, by decide, rfl, ?_, rfl⟩
  · simp [factoryNew, State.reset, State.record?]
  · simp [factoryNew, State.reset, State.binding]
  · rw [← test_reset_is_started]
    rfl

/-- The record of `inWork`. -/
def inWorkRecord : DepositRecord :=
  { deposit 5 .counting with feeding := fedBy 1, pending := 1, cells := (Vector.replicate 12 {}).set 1 { fit := 3 } }

/-- The bundle of `inWork`. -/
def inWorkBundle (closing : Bool) : Bundle :=
  bundle tp1p2 (if closing then .closing else .opened) 3 1 [share 5 3 1]

/-- Slot 5 fed by TP1, with three notes in the bundle of its P2, OPEN or CLOSING, and one more in flight to it, whose
confirmation comes next. -/
def inWork (closing : Bool) : State :=
  { ((feeding (feed .active) [note 0 2]).setRecord 5 (some inWorkRecord)).setBinding tp1p2
      (.bound (inWorkBundle closing)) with
    pending := [.stacked 1 0 2] }

theorem inWork_record {c : Bool} {i : Slot} {r : DepositRecord} (h : (inWork c).record? i = some r) :
    i = 5 ∧ r = inWorkRecord := by
  have h5 : (inWork c).record? 5 = some inWorkRecord := by cases c <;> decide +kernel
  have hx : ∀ i : Slot, i ≠ 5 → (inWork c).record? i = none := by cases c <;> decide +kernel
  by_cases hi : i = 5
  · rw [hi, h5] at h
    exact ⟨hi, (Option.some.inj h).symm⟩
  · rw [hx i hi] at h
    cases h

theorem inWork_bound {c : Bool} {pl : Place} {b : Bundle} (h : (inWork c).binding pl = .bound b) :
    pl = tp1p2 ∧ b = inWorkBundle c := by
  have hb : (inWork c).binding tp1p2 = .bound (inWorkBundle c) := by cases c <;> decide +kernel
  have hx : ∀ x : Place, x ≠ tp1p2 → (inWork c).binding x = .unbound := by cases c <;> decide +kernel
  by_cases hp : pl = tp1p2
  · rw [hp, hb] at h
    exact ⟨hp, (Binding.bound.inj h).symm⟩
  · rw [hx pl hp] at h
    cases h

theorem inWork_port (c : Bool) (p : PortId) : (inWork c).port p =
    if p = 1 then { state := .feeding (feed .active), window := [note 0 2] } else { state := .ready } := by
  have : ∀ p : PortId, (inWork c).port p =
      if p = 1 then { state := .feeding (feed .active), window := [note 0 2] } else { state := .ready } := by
    cases c <;> decide +kernel
  exact this p

theorem inWork_feed {c : Bool} {p : PortId} {f : Feed} (h : ((inWork c).port p).state = .feeding f) :
    p = 1 ∧ f = feed .active := by
  rw [inWork_port] at h
  split at h
  · next hp => exact ⟨hp, (PortState.feeding.inj h).symm⟩
  · cases h

theorem inWork_entry {c : Bool} {p : PortId} {e : Entry} (h : e ∈ ((inWork c).port p).window) :
    p = 1 ∧ e = note 0 2 := by
  rw [inWork_port] at h
  split at h
  · next hp => exact ⟨hp, List.mem_singleton.1 h⟩
  · cases h

theorem inWork_sound (c : Bool) : (inWork c).Sound where
  accounting i r h := by
    obtain ⟨rfl, rfl⟩ := inWork_record h
    cases c <;> decide +kernel
  bundles b h := by
    rcases h with ⟨pl, h⟩ | h
    · obtain ⟨rfl, rfl⟩ := inWork_bound h
      refine ⟨by unfold Bundle.Law; cases c <;> decide, fun x hx => ?_⟩
      rw [List.mem_singleton.1 hx]
      exact ⟨inWorkRecord, by cases c <;> decide +kernel, rfl⟩
    · cases h
  flight _ := by
    refine ⟨fun i r h => ?_, fun pl b h => ?_⟩
    · obtain ⟨rfl, rfl⟩ := inWork_record h
      cases c <;> decide +kernel
    · obtain ⟨rfl, rfl⟩ := inWork_bound h
      cases c <;> decide +kernel
  entries p e he := by
    obtain ⟨rfl, rfl⟩ := inWork_entry he
    refine ⟨by decide, fun pl hpl => ⟨5, inWorkBundle c, rfl, by decide, ?_, share 5 3 1, by cases c <;> decide, rfl⟩⟩
    have : some tp1p2 = some pl := hpl
    rw [← Option.some.inj this]
    cases c <;> decide +kernel
  feeds := by
    refine ⟨fun p f h => ?_, fun i r p h hp => ?_⟩
    · obtain ⟨rfl, rfl⟩ := inWork_feed h
      exact ⟨rfl, inWorkRecord, by cases c <;> decide +kernel, rfl, by cases c <;> decide +kernel⟩
    · obtain ⟨rfl, rfl⟩ := inWork_record h
      have : ∀ p : PortId, inWorkRecord.feeding[p.val] = true → p = 1 := by decide +kernel
      exact ⟨Or.inl rfl, fun _ => ⟨feed .active, by rw [this p hp]; cases c <;> decide +kernel, rfl⟩⟩
  cells i r j g h := by
    obtain ⟨rfl, rfl⟩ := inWork_record h
    have : ∀ (j : DenomIndex), inWorkRecord.cell j g ≤ 3 := by cases g <;> decide +kernel
    have hw : ((List.finRange 4).map fun p =>
        ((sortedFor 5 ((inWork c).port p).window).filter fun e => e.index = some j && e.fitness = g).length).sum ≤ 4 := by
      cases g <;> cases c <;> revert j <;> decide +kernel
    have := this j
    omega
  records := by
    refine ⟨fun i r h => ?_, fun i j r r' h h' _ => (inWork_record h).1.trans (inWork_record h').1.symm⟩
    obtain ⟨rfl, rfl⟩ := inWork_record h
    refine ⟨by decide, by decide, by decide, fun _ => by decide, by decide, by decide, by decide, by decide, by decide⟩
  ports p := by
    rw [inWork_port]
    split
    · refine ⟨by decide, by decide, by decide, by decide, fun _ => by decide, by decide, by decide, fun e he i hi => ?_,
        fun f h => ?_⟩
      · rw [List.mem_singleton.1 he] at hi
        exact ⟨feed .active, rfl, Option.some.inj hi⟩
      · cases h
        decide
    · refine ⟨by decide, by decide, by decide, by decide, fun _ => by decide, by decide, by decide, fun e he => ?_,
        fun f h => ?_⟩
      · cases he
      · cases h
  stops _ := by
    refine ⟨fun h => absurd rfl h, fun p f h => ?_⟩
    obtain ⟨rfl, rfl⟩ := inWork_feed h
    refine ⟨by cases c <;> decide +kernel, ⟨fun h => (by cases h), fun ⟨r, hr, hh⟩ => ?_⟩, by cases c <;> decide +kernel⟩
    rw [(inWork_record hr).2] at hh
    cases hh
  lists := by
    refine ⟨by cases c <;> decide, by cases c <;> decide, by cases c <;> decide, by cases c <;> decide,
      by cases c <;> decide +kernel, by cases c <;> decide +kernel, fun b h => ?_, fun pl b h => ?_, fun pl b h => ?_,
      fun j x h => ?_⟩
    · cases h
    · obtain ⟨rfl, rfl⟩ := inWork_bound h
      cases c <;> decide
    · obtain ⟨rfl, rfl⟩ := inWork_bound h
      cases c <;> decide +kernel
    · match j with
      | 0 =>
        refine ⟨1, (Option.some.inj h).symm, by decide, fun y hy => ?_⟩
        cases hy
      | j + 1 => cases h
  configuration _ _ := by
    have hc : (inWork c).config = cfg := by simp only [inWork, feeding, withDeposit, hall, State.setPort, State.setRecord,
      State.setBinding]
    have hw : (inWork c).checkWord = crc cfg.image := by simp only [inWork, feeding, withDeposit, hall, State.setPort,
      State.setRecord, State.setBinding]
    rw [hc, hw]
    exact ⟨rfl, legal_cfg⟩

theorem witness_AccountingLawIsKept : ∃ s t : State, s.Sound ∧ step s = .next t ∧
    ∃ p f, (s.port p).state = .feeding f ∧ (s.port p).window ≠ [] :=
  ⟨inWork false, _, inWork_sound false, rfl, 1, feed .active, by decide +kernel, by decide +kernel⟩

theorem witness_PocketClearedActsByTheBinding :
    (∃ (s : State) (p : PortId), s.running = true ∧ (s.port p).state = .down) ∧
    (∃ (s : State) (p : PortId), s.running = true ∧ (s.port p).state ≠ .down ∧ placePort tp1p2 = p ∧
      (placePocket tp1p2).val = (2 : Byte).toNat ∧ s.binding tp1p2 = .blocked) ∧
    (∃ (s : State) (p : PortId) (b : Bundle), s.running = true ∧ (s.port p).state ≠ .down ∧ placePort tp1p2 = p ∧
      (placePocket tp1p2).val = (2 : Byte).toNat ∧ s.binding tp1p2 = .bound b ∧ b.state = .strapping) ∧
    (∃ (s : State) (p : PortId) (b : Bundle), s.running = true ∧ (s.port p).state ≠ .down ∧ placePort tp1p2 = p ∧
      (placePocket tp1p2).val = (2 : Byte).toNat ∧ s.binding tp1p2 = .bound b ∧ b.state = .completeWaiting ∧
      b.inFlight = 0 ∧ s.waiting.Nodup ∧ s.waiting ≠ []) ∧
    ∃ (s : State) (p : PortId) (b : Bundle) (f : Feed), s.running = true ∧ (s.port p).state ≠ .down ∧
      placePort tp1p2 = p ∧ (placePocket tp1p2).val = (2 : Byte).toNat ∧ s.binding tp1p2 = .bound b ∧
      b.state = .opened ∧ b.inFlight ≠ 0 ∧ s.ListsLaw ∧ s.LostInRange ∧ (s.port p).state = .feeding f ∧
      f.lost ≤ 65535 := by
  let b1 : Bundle := { bundle tp1p2 .strapping 20 0 [] with number := some 1 }
  let b2 : Bundle := bundle tp1p2 .completeWaiting 20 0 [share 5 20 0]
  exact ⟨⟨State.reset, 3, rfl, by decide +kernel⟩,
    ⟨hall.setBinding tp1p2 .blocked, 1, rfl, by decide +kernel, by decide, by decide, by decide +kernel⟩,
    ⟨{ hall.setBinding tp1p2 (.bound b1) with queue := [.inPocket tp1p2] }, 1, b1, rfl, by decide +kernel, by decide,
      by decide, by decide +kernel, rfl⟩,
    ⟨{ hall.setBinding tp1p2 (.bound b2) with queue := List.replicate 16 (.lifted strapped), waiting := [tp1p2] }, 1, b2,
      rfl, by decide +kernel, by decide, by decide, by decide +kernel, rfl, rfl, by decide, by decide⟩,
    inWork false, 1, inWorkBundle false, feed .active, rfl, by decide +kernel, by decide, by decide, by decide +kernel, rfl, by decide,
    (inWork_sound false).lists, lostInRange_of (by decide +kernel), by decide +kernel, by decide⟩

/-! ### Where the counts and the stop sets stand as the rules keep them -/

/-- The notes in flight to the bundle of `inWork` are those that its port's window names. -/
theorem inWork_lossesFit (c : Bool) (p : PortId) : (inWork c).LossesFit p ((inWork c).port p).window := by
  intro pl b hp hb _
  obtain ⟨rfl, rfl⟩ := inWork_bound hb
  subst hp
  unfold Bundle.Loses
  cases c <;> decide +kernel

/-- TP1's feed, stopped by POCKET_FULL, where P0 is full by the note in flight to it. -/
def brimful (jams : Nat) : State :=
  (feeding { feed .suspended with stop := { pocketFull := true }, jams := jams } [note 0 0]).modPort 1 fun q =>
    { q with p0 := { q.p0 with fill := 299 } }

theorem witness_PortLawIsKept_stopSets : ∃ s t : State, s.PortLaw ∧ s.FeedLaw ∧ s.StopLaw ∧ step s = .next t ∧
    ∃ p f, (s.port p).state = .feeding f :=
  ⟨inWork false, _, (inWork_sound false).ports, (inWork_sound false).feeds, (inWork_sound false).stops, rfl, 1, feed .active, by decide +kernel⟩

theorem witness_HelloBringsUpThePort_lists : ∃ (s : State) (p : PortId), s.running = true ∧ s.LostInRange ∧
    (∀ pl b, s.binding pl = .bound b → b.state ≠ .collectable) ∧ s.ListsLaw ∧ s.LossesFit p (s.port p).window ∧
    s.completedBy none p (s.port p).window = [tp1p2] :=
  ⟨inWork true, 1, rfl, lostInRange_of (by decide +kernel), fun pl b hb => by rw [(inWork_bound hb).2]; decide,
    (inWork_sound true).lists, inWork_lossesFit true 1, by decide +kernel⟩

theorem witness_JamActsByTheFeed_losses :
    (∃ (s : State) (p : PortId) (f : Feed), s.running = true ∧ s.LostInRange ∧ (s.port p).state = .feeding f ∧
      f.lost ≤ 65535 ∧ s.LossesFit p (s.port p).window ∧ s.completedBy none p (s.port p).window = [tp1p2]) ∧
    ∀ jams < 3, ∃ (s : State) (p : PortId) (f : Feed), s.running = true ∧ s.LostInRange ∧
      (s.port p).state = .feeding f ∧ f.lost ≤ 65535 ∧ f.jams = jams ∧
      f.stop.pocketFull = (s.port p).Full s.returnStop s.suspectStop ∧ (s.jamAt p false none).words = [.resume] := by
  have h : ∀ jams < 3,
      let s := brimful jams
      let f : Feed := { feed .suspended with stop := { pocketFull := true }, jams := jams }
      s.running = true ∧ (∀ j : Slot, ((s.record? j).all fun r => r.lost ≤ 65535) = true) ∧
      (s.port 1).state = .feeding f ∧ f.lost ≤ 65535 ∧
      f.stop.pocketFull = (s.port 1).Full s.returnStop s.suspectStop ∧ (s.jamAt 1 false none).words = [.resume] := by
    decide +kernel
  refine ⟨⟨inWork true, 1, feed .active, rfl, lostInRange_of (by decide +kernel), by decide +kernel, by decide,
    inWork_lossesFit true 1, by decide +kernel⟩, fun jams hj => ?_⟩
  obtain ⟨h1, h2, h3, h4, h5, h6⟩ := h jams hj
  exact ⟨_, 1, _, h1, lostInRange_of h2, h3, h4, rfl, h5, h6⟩

theorem witness_HoldUpExpiryAbortsEveryFeed_lists : ∃ (s : State) (h : HoldUpTimer), s.running = true ∧
    s.LostInRange ∧ s.holdUp = some h ∧ (∀ p, s.LossesFit p (s.port p).window) ∧
    s.completedBy none 1 (s.port 1).window = [tp1p2] :=
  ⟨{ inWork true with warning := true, holdUp := some { start := 0, duration := 60 } }, _, rfl,
    lostInRange_of (by decide +kernel), rfl, inWork_lossesFit true, by decide +kernel⟩

end Sys2Proof.Tests
end

section
/-! PROOFS. Requests that name a record by its reference (R19), and what their rules read. -/

namespace Sys2Proof.Machine

/-! ### Bodies as they are read -/

/-- R177: a reference that is laid out is read. -/
@[simp] theorem readReference_referenceBody (ref : Reference) : readReference (referenceBody ref) = some ref := by
  have h : ref.toNat % 256 ^ 4 = ref.toNat := Nat.mod_eq_of_lt ref.isLt
  rw [readReference, referenceBody, if_pos (bytesOf_length _ _), natOf_bytesOf, h, BitVec.ofNat_toNat,
    BitVec.setWidth_eq]

/-- R177: a Seal body that is laid out is read. -/
@[simp] theorem readSeal_body (d : SealFields) : readSeal d.body = some d := by
  have hf : field d.body 0 4 = d.reference.toNat := by
    rw [SealFields.body, field_append_left _ (by simp), field_bytesOf]
    exact Nat.mod_eq_of_lt d.reference.isLt
  have hl : d.body.length = 5 := by simp [SealFields.body]
  have ha : byteAt d.body 4 = d.accept := rfl
  simp [readSeal, hl, hf, ha]

/-- R177: a Look Up body that is laid out is read. -/
@[simp] theorem readLookUp_body (d : LookUpFields) : readLookUp d.body = some d := by
  have hf : field d.body 1 4 = d.value.toNat := by
    refine (field_append_right [d.selector] (bytesOf 4 d.value.toNat) 0 4).trans ?_
    rw [field_bytesOf]
    exact Nat.mod_eq_of_lt d.value.isLt
  have hl : d.body.length = 5 := by simp [LookUpFields.body]
  have hs : byteAt d.body 0 = d.selector := rfl
  simp [readLookUp, hl, hf, hs]

/-- R177: a List body that is laid out is read. -/
@[simp] theorem readListFields_body (d : ListFields) : readListFields d.body = some d := rfl

/-! ### The record of a reference (R19) -/

/-- A search that finds a slot finds a record that holds the reference. -/
theorem State.slotOf?_eq_some {s : State} {ref : Reference} {i : Slot} (h : s.slotOf? ref = some i) :
    ∃ r, s.record? i = some r ∧ r.reference = ref := by
  have ht := List.find?_some h
  cases hr : s.record? i with
  | none => simp [hr] at ht
  | some r => exact ⟨r, rfl, by simpa [hr] using ht⟩

/-- The search fails exactly where no record holds the reference. -/
theorem State.slotOf?_eq_none {s : State} {ref : Reference} : s.slotOf? ref = none ↔ s.Unnamed ref := by
  simp only [State.slotOf?, State.Unnamed, List.find?_eq_none, List.mem_finRange, forall_true_left]
  refine forall_congr' fun i => ?_
  cases s.record? i <;> simp

/-- The search finds the one slot that holds the reference. -/
theorem State.slotOf?_of_named {s : State} {ref : Reference} {i : Slot} {r : DepositRecord}
    (h : s.Named ref i r) : s.slotOf? ref = some i := by
  obtain ⟨hr, he, -, honly⟩ := h
  cases hs : s.slotOf? ref with
  | none => exact absurd he (State.slotOf?_eq_none.1 hs i r hr)
  | some j =>
    obtain ⟨r', hr', he'⟩ := State.slotOf?_eq_some hs
    rw [honly j r' hr' he']

theorem withRecord_zero (s : State) (act : Slot → DepositRecord → State × Reply) :
    withRecord s 0 act = refuse s .badField := rfl

theorem withRecord_unnamed {s : State} {ref : Reference} (h0 : ref ≠ 0) (h : s.Unnamed ref)
    (act : Slot → DepositRecord → State × Reply) : withRecord s ref act = refuse s .notFound := by
  rw [withRecord, if_neg h0, State.slotOf?_eq_none.2 h]

theorem withRecord_named {s : State} {ref : Reference} {i : Slot} {r : DepositRecord} (h : s.Named ref i r)
    (act : Slot → DepositRecord → State × Reply) : withRecord s ref act = act i r := by
  obtain ⟨hr, -, h0, -⟩ := id h
  simp only [withRecord, if_neg h0, State.slotOf?_of_named h, hr]

section
variable {s : State} {code : Byte} {body : List Byte} {rule : RequestRule} {ref : Reference}
  {act : Slot → DepositRecord → State × Reply}

/-- R19: the two refusals that every request on a named record makes first. -/
theorem execRequest_unnamed (h : s.executes code body = true) (hrule : rule body s = withRecord s ref act) :
    (ref = 0 → execRequest code rule body s = .next (s.replies s .badField [])) ∧
    (ref ≠ 0 → s.Unnamed ref → execRequest code rule body s = .next (s.replies s .notFound [])) := by
  refine ⟨fun h0 => execRequest_refused h ?_, fun h0 hu => execRequest_refused h ?_⟩
  · rw [hrule, h0, withRecord_zero]
  · rw [hrule, withRecord_unnamed h0 hu]

/-- R19: a request on a record that refuses it. -/
theorem execRequest_named_refused (h : s.executes code body = true) (hrule : rule body s = withRecord s ref act)
    {i : Slot} {r : DepositRecord} (hn : s.Named ref i r) {why : CompletionCode} (ha : act i r = refuse s why) :
    execRequest code rule body s = .next (s.replies s why []) :=
  execRequest_refused h (by rw [hrule, withRecord_named hn, ha])

/-- R19: a request on a record that is carried out. -/
theorem execRequest_named_accepted (h : s.executes code body = true) (hrule : rule body s = withRecord s ref act)
    {i : Slot} {r : DepositRecord} (hn : s.Named ref i r) {u : State} {answer : List Byte}
    (ha : act i r = accept u answer) : execRequest code rule body s = .next (s.replies u .ok answer) :=
  execRequest_accepted h (by rw [hrule, withRecord_named hn, ha])

end

/-! ### The rules, on a body that is read -/

theorem cancelRule_body (s : State) (ref : Reference) :
    cancelRule (referenceBody ref) s = withRecord s ref fun i r =>
      if r.state = .declared ∧ !r.holdsCredit ∧ r.pending = 0 then accept (s.setRecord i none) []
      else refuse s .wrongState := by
  simp only [cancelRule, readReference_referenceBody]

theorem retireRule_body (s : State) (ref : Reference) :
    retireRule (referenceBody ref) s = withRecord s ref fun i r =>
      if r.state ≠ .sealed then refuse s .wrongState
      else if r.bandedTotal = r.collected + r.voided then accept (s.setRecord i none) []
      else refuse s .inBundle := by
  simp only [retireRule, readReference_referenceBody]

theorem holdRule_body (s : State) (ref : Reference) :
    holdRule (referenceBody ref) s = withRecord s ref fun i r =>
      if r.state = .sealed then refuse s .sealed
      else accept (s.holdRecord true i .host) ((s.holdRecord true i .host).holdImage i) := by
  simp only [holdRule, readReference_referenceBody]

theorem releaseRule_body (s : State) (ref : Reference) :
    releaseRule (referenceBody ref) s = withRecord s ref fun i r =>
      if r.state = .held then
        accept (r.members.foldl (fun t p => t.setHoldStop true p false) (s.setRecord i (some (r.release s.now))))
          [recordStateByte (some (r.release s.now).state)]
      else refuse s .wrongState := by
  simp only [releaseRule, readReference_referenceBody]

theorem sealRule_body {s : State} {d : SealFields} (h : d.accept.toNat ≤ 1) :
    sealRule d.body s = withRecord s d.reference fun i r =>
      if r.state = .balanced ∨ r.state = .discrepant ∧ d.accept = 1 then
        accept (s.setRecord i (some { r with state := .sealed })) []
      else refuse s .wrongState := by
  simp only [sealRule, readSeal_body, Nat.not_lt.2 h, if_false]

/-- R46: an accept flag above 1 is BAD_FIELD. -/
theorem sealRule_badAccept {s : State} {d : SealFields} (h : 1 < d.accept.toNat) :
    sealRule d.body s = refuse s .badField := by
  simp only [sealRule, readSeal_body, h, if_true]

end Sys2Proof.Machine
end

section
/-! PROOFS. Cancel, Seal and Retire (R33, R46, R47). -/

namespace Sys2Proof.Machine

/-- Settles O19: each of the three requests by its own rule on the named record. -/
theorem cancelSealAndRetireEndARecord : Obligations.CancelSealAndRetireEndARecord := by
  refine fun s ref => ⟨fun h => ?cancel, fun h => ?retire, fun d h => ?sealing⟩
  case cancel =>
    have hrule := cancelRule_body s ref
    obtain ⟨hzero, hnone⟩ := execRequest_unnamed h hrule
    refine ⟨hzero, hnone, fun i r hn => ⟨fun hc => ?_, fun hc => ?_⟩⟩
    · exact execRequest_named_accepted h hrule hn (by simp [hc])
    · exact execRequest_named_refused h hrule hn (if_neg (by simpa using hc))
  case retire =>
    have hrule := retireRule_body s ref
    obtain ⟨hzero, hnone⟩ := execRequest_unnamed h hrule
    refine ⟨hzero, hnone, fun i r hn => ⟨fun hs => ?_, fun hs hb => ?_, fun hs hb => ?_⟩⟩
    · exact execRequest_named_refused h hrule hn (if_pos hs)
    · exact execRequest_named_refused h hrule hn (by simp [hs, hb])
    · exact execRequest_named_accepted h hrule hn (by simp [hs, hb])
  case sealing =>
    have hone : d.accept.toNat = 1 ↔ d.accept = 1 := BitVec.toNat_inj (y := 1#8)
    refine ⟨fun hbad => ?_, fun ha => (execRequest_unnamed h (sealRule_body ha)).2, fun i r ha hn =>
      ⟨fun ht => ?_, fun ht => ?_⟩⟩
    · by_cases ha : 1 < d.accept.toNat
      · exact execRequest_refused h (sealRule_badAccept ha)
      · exact (execRequest_unnamed h (sealRule_body (Nat.not_lt.1 ha))).1 (hbad.resolve_left ha)
    · exact execRequest_named_accepted h (sealRule_body ha) hn (if_pos (by rwa [← hone]))
    · exact execRequest_named_refused h (sealRule_body ha) hn (if_neg (by rwa [← hone]))

end Sys2Proof.Machine
end

section
/-! PROOFS. Hold and Release (R37, R39, R60). -/

namespace Sys2Proof.Machine

/-- R36: a record that a hold reaches is HELD after it, unless it is SEALED. -/
theorem DepositRecord.afterHold_state {r : DepositRecord} (h : r.state ≠ .sealed)
    (add : HoldReasons → HoldReasons) : (r.afterHold add).state = .held := by
  unfold DepositRecord.afterHold
  cases hs : r.state with
  | sealed => exact absurd hs h
  | _ => simp [RecordState.Holdable]

/-- R37: the Hold response for a record that stands in its slot. -/
theorem State.holdImage_eq {s : State} {i : Slot} {r : DepositRecord} (h : s.record? i = some r) :
    s.holdImage i = [recordStateByte (some r.state), r.holds.byte] := by
  simp only [State.holdImage, h]

/-- R37: the Hold response after the hold: HELD, with the reasons as they then stand. -/
theorem State.holdImage_holdRecord {s : State} {i : Slot} {r : DepositRecord} (hr : s.record? i = some r)
    (hs : r.state ≠ .sealed) (why : HoldReason) :
    (s.holdRecord true i why).holdImage i = [5, (r.afterHold fun h => h.add why).holds.byte] := by
  have hrec : (s.holdRecord true i why).record? i = some (r.afterHold fun h => h.add why) := by
    simp [State.holdRecord_record?, hr]
  rw [State.holdImage_eq hrec, DepositRecord.afterHold_state hs]
  rfl

/-- Settles O22: an accepted Hold is the shared hold operation with the reason HOST. -/
theorem holdStopsTheRecordAndItsFeeds : Obligations.HoldStopsTheRecordAndItsFeeds := by
  intro s ref h
  have hrule := holdRule_body s ref
  obtain ⟨hzero, hnone⟩ := execRequest_unnamed h hrule
  refine ⟨hzero, hnone, fun i r hn => ⟨fun hs => ?_, fun hs => ?_⟩⟩
  · exact execRequest_named_refused h hrule hn (if_pos hs)
  · obtain ⟨hr, -, -, -⟩ := id hn
    refine execRequest_named_accepted h hrule hn ?_
    rw [if_neg hs, State.holdImage_holdRecord hr hs, State.holdRecord_eq hr]
    rfl

/-- R39: what decides that a released record goes on COUNTING. -/
def DepositRecord.ReleasesToCounting (r : DepositRecord) : Prop :=
  r.holdsCredit = true ∨ (∃ p : PortId, r.feeding[p.val] = true) ∨ r.pending ≠ 0

theorem DepositRecord.feedingEmpty_eq_false {r : DepositRecord} :
    r.feedingEmpty = false ↔ ∃ p : PortId, r.feeding[p.val] = true := by
  rw [← Bool.not_eq_true, DepositRecord.feedingEmpty_iff]
  simp

/-- R39: the test that the rule makes. -/
theorem DepositRecord.releasesToCounting_iff {r : DepositRecord} :
    r.ReleasesToCounting ↔ r.holdsCredit ∨ !r.feedingEmpty ∨ r.pending ≠ 0 := by
  simp [DepositRecord.ReleasesToCounting, DepositRecord.feedingEmpty_eq_false]

/-- R39, R43: a released record that goes to COUNTING; its idle timer starts where no transport feeds it. -/
theorem DepositRecord.release_of_counting {r : DepositRecord} (h : r.ReleasesToCounting) (now : Nat) :
    r.release now = { r with
      state := .counting, holds := {}, idleSince := if r.feedingEmpty then some now else r.idleSince } := by
  have hf : DepositRecord.feedingEmpty { r with state := .counting, holds := {} } = r.feedingEmpty := rfl
  rw [DepositRecord.release, if_pos (DepositRecord.releasesToCounting_iff.1 h), DepositRecord.startIdle, hf]
  cases r.feedingEmpty <;> rfl

/-- R39: a released record with nothing to count is DECLARED. -/
theorem DepositRecord.release_of_not_counting {r : DepositRecord} (h : ¬ r.ReleasesToCounting) (now : Nat) :
    r.release now = { r with state := .declared, holds := {} } :=
  if_neg fun hc => h (DepositRecord.releasesToCounting_iff.2 hc)

/-- R39, R60: HOLD leaves the stop set of every feed of a feeding set. -/
theorem State.foldl_clearHold (s : State) (r : DepositRecord) :
    r.members.foldl (fun t p => t.setHoldStop true p false) s =
      { s with ports := Vector.ofFn fun p : PortId =>
          if r.feeding[p.val] then (s.port p).takesHold false else s.port p } := by
  simp only [State.setHoldStop_eq]
  rw [State.foldl_modPort (fun _ q => q.takesHold false) _ _ r.members_nodup]
  simp only [DepositRecord.mem_members]

/-- R39: an accepted Release, with the released record as a whole. -/
theorem exec_release_held {s : State} {ref : Reference} (h : s.executes 0x08 (referenceBody ref) = true)
    {i : Slot} {r : DepositRecord} (hn : s.Named ref i r) (hs : r.state = .held) :
    exec (.release (referenceBody ref)) s = .next (s.replies
      { s.setRecord i (some (r.release s.now)) with
        ports := Vector.ofFn fun p : PortId =>
          if r.feeding[p.val] then (s.port p).takesHold false else s.port p }
      .ok [recordStateByte (some (r.release s.now).state)]) := by
  refine execRequest_named_accepted h (releaseRule_body s ref) hn ?_
  rw [if_pos hs, State.foldl_clearHold]
  rfl

/-- Settles O23: the released record is COUNTING or DECLARED by `ReleasesToCounting`. -/
theorem releaseEndsTheHold : Obligations.ReleaseEndsTheHold := by
  intro s ref h
  have hrule := releaseRule_body s ref
  obtain ⟨hzero, hnone⟩ := execRequest_unnamed h hrule
  refine ⟨hzero, hnone, fun i r hn => ⟨fun hs => ?_, fun hs => ?_⟩⟩
  · exact execRequest_named_refused h hrule hn (if_neg hs)
  have hexec := exec_release_held h hn hs
  by_cases hc : r.ReleasesToCounting
  · rw [DepositRecord.release_of_counting hc] at hexec
    refine ⟨.counting, _, fun _ => rfl, fun hnot => absurd hc hnot, fun _ hfed => ?_, fun hfed => ?_, hexec⟩
    · rw [if_pos]
      simpa [DepositRecord.feedingEmpty_iff] using hfed
    · have hne := DepositRecord.feedingEmpty_eq_false.2 (hfed.resolve_left (not_not_intro hc))
      simp [hne]
  · rw [DepositRecord.release_of_not_counting hc] at hexec
    exact ⟨.declared, _, fun hyes => absurd hyes hc, fun _ => rfl, fun hyes => absurd hyes hc, fun _ => rfl, hexec⟩

end Sys2Proof.Machine
end

section
/-! PROOFS. List (R35). -/

namespace Sys2Proof.Machine

/-- In an ordered list an element stands among the first `n`, or there are `n` and they all come before it. -/
theorem mem_take_or_all_before {α : Type} {R : α → α → Prop} {l : List α} (hl : l.Pairwise R) (n : Nat) {x : α}
    (hx : x ∈ l) : x ∈ l.take n ∨ (l.take n).length = n ∧ ∀ e ∈ l.take n, R e x := by
  rw [← List.take_append_drop n l] at hl hx
  obtain hx | hx := List.mem_append.1 hx
  · exact .inl hx
  · have hlong : n < l.length := by
      have := List.length_pos_of_mem hx
      rw [List.length_drop] at this
      omega
    exact .inr ⟨List.length_take_of_le hlong.le, fun e he => (List.pairwise_append.1 hl).2.2 e he x hx⟩

theorem filterMatches_iff {filter : Byte} {st : RecordState} :
    filterMatches filter st = true ↔ filter = 0 ∨ filter.getLsbD (recordStateByte (some st)).toNat = true := by
  simp [filterMatches]

/-- R35: what List takes from a slot. -/
def State.listEntry (s : State) (filter : Byte) (start : Nat) (i : Slot) : Option (Slot × DepositRecord) :=
  match s.record? i with
  | none => none
  | some r => if start ≤ i.val ∧ filterMatches filter r.state then some (i, r) else none

theorem State.listed_eq (s : State) (filter : Byte) (start : Nat) :
    s.listed filter start = (List.finRange 128).filterMap (s.listEntry filter start) := rfl

theorem State.listEntry_eq_some {s : State} {filter : Byte} {start : Nat} {i : Slot} {e : Slot × DepositRecord} :
    s.listEntry filter start i = some e ↔
      e.1 = i ∧ s.record? i = some e.2 ∧ start ≤ i.val ∧ filterMatches filter e.2.state = true := by
  obtain ⟨j, r⟩ := e
  unfold State.listEntry
  cases s.record? i with
  | none => simp
  | some r' =>
    simp only [Option.ite_none_right_eq_some, Option.some.injEq, Prod.mk.injEq]
    constructor
    · rintro ⟨h, rfl, rfl⟩
      exact ⟨rfl, rfl, h⟩
    · rintro ⟨rfl, rfl, h⟩
      exact ⟨h, rfl, rfl⟩

/-- R35: what is listed is the matching records of the slots from the start slot. -/
theorem State.mem_listed {s : State} {filter : Byte} {start : Nat} {e : Slot × DepositRecord} :
    e ∈ s.listed filter start ↔
      s.record? e.1 = some e.2 ∧ start ≤ e.1.val ∧ filterMatches filter e.2.state = true := by
  simp [State.listed_eq, List.mem_filterMap, State.listEntry_eq_some]

/-- R35: the listed records stand in slot order. -/
theorem State.listed_pairwise (s : State) (filter : Byte) (start : Nat) :
    (s.listed filter start).Pairwise fun e e' => e.1 < e'.1 := by
  refine (List.pairwise_lt_finRange 128).filterMap _ fun i i' hlt e he e' he' => ?_
  rw [(State.listEntry_eq_some.1 he).1, (State.listEntry_eq_some.1 he').1]
  exact hlt

/-- R35: after sixteen entries of which the last is below slot 127, the next slot is where to go on. -/
theorem continuation_of_full {l : List (Slot × DepositRecord)} {e : Slot × DepositRecord} (he : l.getLast? = some e)
    (hlen : l.length = 16) (hlt : e.1.val < 127) : continuation l = natByte (e.1.val + 1) := by
  simp only [continuation, he]
  exact if_pos ⟨hlen, hlt⟩

/-- R35: fewer than sixteen entries, and a last entry in slot 127, are the end. -/
theorem continuation_of_end {l : List (Slot × DepositRecord)}
    (h : l.length ≠ 16 ∨ ∃ e, l.getLast? = some e ∧ e.1.val = 127) : continuation l = 0xFF := by
  unfold continuation
  cases he : l.getLast? with
  | none => rfl
  | some e =>
    refine if_neg fun ⟨hlen, hlt⟩ => ?_
    obtain hne | ⟨e', he', heq⟩ := h
    · exact hne hlen
    · rw [he, Option.some.injEq] at he'
      subst he'
      omega

/-- R35: the fields of List that it refuses. -/
def ListFields.Bad (d : ListFields) : Prop :=
  d.filter.getLsbD 0 = true ∨ d.filter.getLsbD 7 = true ∨ 127 < d.start.toNat

theorem listRule_bad {d : ListFields} (h : d.Bad) (s : State) : listRule d.body s = refuse s .badField := by
  simp only [listRule, readListFields_body]
  exact if_pos h

theorem listRule_good {d : ListFields} (h : ¬ d.Bad) (s : State) :
    listRule d.body s =
      let l := (s.listed d.filter d.start.toNat).take 16
      accept s ([natByte l.length, continuation l] ++
        l.flatMap fun e =>
          natByte e.1.val :: (bytesOf 4 e.2.reference.toNat ++ [recordStateByte (some e.2.state)])) := by
  simp only [listRule, readListFields_body]
  exact if_neg h

/-- Settles O21: the answer is the first sixteen of all that is listed. -/
theorem listAnswersTheNextSixteen : Obligations.ListAnswersTheNextSixteen := by
  intro s d h
  refine ⟨fun hbad => execRequest_refused h (listRule_bad hbad s), fun hgood => ?_⟩
  let all := s.listed d.filter d.start.toNat
  have hsorted : all.Pairwise fun e e' => e.1 < e'.1 := s.listed_pairwise _ _
  refine ⟨all.take 16, fun e he => ?_, hsorted.sublist (List.take_sublist 16 all), List.length_take_le 16 all,
    fun i hi => ?_, continuation (all.take 16), fun e => continuation_of_full, continuation_of_end,
    execRequest_accepted h (listRule_good hgood s)⟩
  · obtain ⟨hr, hstart, hfilter⟩ := State.mem_listed.1 (List.mem_of_mem_take he)
    exact ⟨hr, e.2, hr, hstart, filterMatches_iff.1 hfilter⟩
  · obtain ⟨r, hr, hstart, hfilter⟩ := hi
    have hmem : (i, r) ∈ all := State.mem_listed.2 ⟨hr, hstart, filterMatches_iff.2 hfilter⟩
    exact (mem_take_or_all_before hsorted 16 hmem).imp_left fun hm => ⟨r, hm⟩

end Sys2Proof.Machine
end

section
/-! PROOFS. The fields of a layout: fields behind other bytes, in a list of equal pieces, in padding, and the bits of
a set (R167, R178). -/

namespace Sys2Proof.Machine

/-- A field of what stands behind the first `n` bytes. -/
theorem field_drop (l : List Byte) (n k len : Nat) : field (l.drop n) k len = field l (n + k) len := by
  simp only [field, List.drop_drop]

/-- A byte of what stands behind the first `n` bytes. -/
theorem byteAt_drop (l : List Byte) (n k : Nat) : byteAt (l.drop n) k = byteAt l (n + k) := by
  simp only [byteAt, List.getD_eq_getElem?_getD, List.getElem?_drop]

/-- The bytes of equal pieces are as many as the pieces have together. -/
theorem length_flatMap_const {α : Type} {f : α → List Byte} {w : Nat} (hw : ∀ x, (f x).length = w) (l : List α) :
    (l.flatMap f).length = w * l.length := by
  simp [List.length_flatMap, hw, Nat.mul_comm]

/-- A field of one of several pieces of `w` bytes each. -/
theorem field_flatMap {α : Type} {f : α → List Byte} {w : Nat} (hw : ∀ x, (f x).length = w) {k len : Nat}
    (hk : k + len ≤ w) : ∀ {l : List α} {j : Nat} {x : α}, l[j]? = some x → ∀ m : List Byte,
    field (l.flatMap f ++ m) (w * j + k) len = field (f x) k len
  | y :: l, 0, x, hx, m => by
    obtain rfl : y = x := by simpa using hx
    rw [List.flatMap_cons, List.append_assoc, Nat.mul_zero, Nat.zero_add]
    exact field_append_left _ (by rw [hw]; exact hk)
  | y :: l, j + 1, x, hx, m => by
    have ih := field_flatMap hw hk (l := l) (by simpa using hx) m
    have hoff : w * (j + 1) + k = (f y).length + (w * j + k) := by rw [hw]; ring
    rw [List.flatMap_cons, List.append_assoc, hoff, field_append_right, ih]

/-- R167, R178: an unused byte is zero. -/
theorem byteAt_padTo {n j : Nat} {l : List Byte} (hj : l.length ≤ j) : byteAt (padTo n l) j = 0 := by
  simp only [byteAt, padTo, List.getD_eq_getElem?_getD, List.getElem?_append_right hj, List.getElem?_replicate]
  split <;> rfl

/-- The number of a set of bits. -/
theorem foldr_bits_testBit : ∀ (bits : List Bool) (k : Nat),
    (bits.foldr (fun (b : Bool) (n : Nat) => b.toNat + 2 * n) 0).testBit k = bits.getD k false
  | [], k => by simp
  | b :: bits, 0 => by
    rw [List.foldr_cons, Nat.add_comm, ← Nat.bit_val, Nat.testBit_bit_zero]
    rfl
  | b :: bits, k + 1 => by
    rw [List.foldr_cons, Nat.add_comm, ← Nat.bit_val, Nat.testBit_bit_succ, foldr_bits_testBit bits k]
    rfl

theorem foldr_bits_lt : ∀ bits : List Bool,
    bits.foldr (fun (b : Bool) (n : Nat) => b.toNat + 2 * n) 0 < 2 ^ bits.length
  | [] => by simp
  | b :: bits => by
    have ih := foldr_bits_lt bits
    have hb := b.toNat_le
    rw [List.foldr_cons, List.length_cons, pow_succ]
    omega

/-- R167: the bits of a set's byte, from bit 0 up. -/
theorem bitsByte_getLsbD (bits : List Bool) {k : Nat} (hk : k < 8) :
    (bitsByte bits).getLsbD k = bits.getD k false := by
  simp only [bitsByte, natByte, BitVec.getLsbD_ofNat, hk, decide_true, Bool.true_and, foldr_bits_testBit]

/-- R167: the bits above the named values are zero. -/
theorem bitsByte_lt {bits : List Bool} (h : bits.length ≤ 8) : (bitsByte bits).toNat < 2 ^ bits.length := by
  have hlt := foldr_bits_lt bits
  have hpow : 2 ^ bits.length ≤ 2 ^ 8 := Nat.pow_le_pow_right (by omega) h
  rw [bitsByte, natByte, BitVec.toNat_ofNat, Nat.mod_eq_of_lt (by omega)]
  exact hlt

end Sys2Proof.Machine
end

section
/-! PROOFS. The record image, part by part (R178). A part whose bytes before it are fixed in number is reached by
computation; the breakdown and the mismatch list are padded to a fixed width. -/

namespace Sys2Proof.Machine

/-! ### The parts of a record image -/

/-- The bytes of one entry of a breakdown. -/
def BreakdownEntry.image (e : BreakdownEntry) : List Byte :=
  natByte e.index.val :: bytesOf 2 e.count

/-- The bytes of the three cells of one denomination index. -/
def TallyCell.image (c : TallyCell) : List Byte :=
  bytesOf 2 c.fit ++ bytesOf 2 c.unfit ++ bytesOf 2 c.suspect

/-- The bytes of one entry of a mismatch list. -/
def Mismatch.image (m : Mismatch) : List Byte :=
  natByte m.index.val :: bytesOf 4 (BitVec.ofInt 32 m.difference).toNat

/-- The result's part of a record image. -/
def resultImage : Option Settlement → List Byte
  | none => padTo 85 [0]
  | some t => 1 :: t.image

/-- The part of a record image between the cells and the result. -/
def DepositRecord.countsImage (r : DepositRecord) (now : Nat) : List Byte :=
  bytesOf 2 r.unrecognized ++ bytesOf 2 r.returned ++ bytesOf 2 r.lost ++
  bytesOf 4 r.collected ++ bytesOf 4 r.voided ++
  [bitsByte r.feeding.toList, natByte r.pending, natByte r.reopens, r.holds.byte, r.flags.byte,
   boolByte r.idleSince.isSome] ++
  bytesOf 2 (idleMinutes now r.idleSince)

/-- The part of a record image before the breakdown. -/
def DepositRecord.headImage (r : DepositRecord) (slot : Slot) : List Byte :=
  [natByte slot.val, recordStateByte (some r.state)] ++
  bytesOf 4 r.reference.toNat ++ bytesOf 3 r.customer.toNat ++
  [natByte r.currency.val, r.custody.byte] ++
  bytesOf 6 r.declaredTotal ++
  [natByte r.breakdown.length]

/-- R178: a record image is its five parts. -/
theorem DepositRecord.image_eq (r : DepositRecord) (slot : Slot) (now : Nat) :
    r.image slot now = r.headImage slot ++ (padTo 36 (r.breakdown.flatMap BreakdownEntry.image) ++
      (r.cells.toList.flatMap TallyCell.image ++ (r.countsImage now ++ resultImage r.result))) := by
  have hparts : r.image slot now = r.headImage slot ++ padTo 36 (r.breakdown.flatMap BreakdownEntry.image) ++
      r.cells.toList.flatMap TallyCell.image ++ r.countsImage now ++ resultImage r.result := by
    simp only [DepositRecord.image, DepositRecord.countsImage, ← List.append_assoc]
    cases r.result <;> rfl
  simpa only [List.append_assoc] using hparts

/-! ### How long the parts are -/

theorem BreakdownEntry.image_length (e : BreakdownEntry) : e.image.length = 3 := rfl

theorem TallyCell.image_length (c : TallyCell) : c.image.length = 6 := rfl

theorem Mismatch.image_length (m : Mismatch) : m.image.length = 5 := by
  rw [Mismatch.image, List.length_cons, bytesOf_length]

theorem breakdownImage_length (l : List BreakdownEntry) : (l.flatMap BreakdownEntry.image).length = 3 * l.length :=
  length_flatMap_const BreakdownEntry.image_length l

theorem cellsImage_length (cells : Vector TallyCell 12) : (cells.toList.flatMap TallyCell.image).length = 72 := by
  rw [length_flatMap_const TallyCell.image_length, Vector.length_toList]

theorem mismatchImage_length (l : List Mismatch) : (l.flatMap Mismatch.image).length = 5 * l.length :=
  length_flatMap_const Mismatch.image_length l

@[simp] theorem DepositRecord.headImage_length (r : DepositRecord) (slot : Slot) :
    (r.headImage slot).length = 18 := rfl

@[simp] theorem DepositRecord.countsImage_length (r : DepositRecord) (now : Nat) :
    (r.countsImage now).length = 22 := rfl

/-- R146: a mismatch list names each of the twelve indexes at most once. -/
def Settlement.ListFits (t : Settlement) : Prop :=
  ∀ l, t.mismatches = some l → l.length ≤ 12

/-- R20, R146: the two lists of a record have at most twelve entries each. -/
def DepositRecord.ListsFit (r : DepositRecord) : Prop :=
  r.breakdown.length ≤ 12 ∧ ∀ t, r.result = some t → t.ListFits

/-- The part of a result image behind the mark: whether there is a mismatch list, its length and its entries. -/
def Settlement.listImage (t : Settlement) : List Byte :=
  match t.mismatches with
  | none => padTo 62 [0, 0]
  | some l => padTo 62 ([1, natByte l.length] ++ l.flatMap Mismatch.image)

theorem Settlement.image_eq (t : Settlement) :
    t.image = [t.outcome.byte] ++ bytesOf 6 t.counted ++ bytesOf 6 t.suspect ++
      bytesOf 8 (BitVec.ofInt 64 t.difference).toNat ++ [boolByte t.suspectMark] ++ t.listImage := rfl

theorem Settlement.listImage_length {t : Settlement} (h : t.ListFits) : t.listImage.length = 62 := by
  unfold Settlement.listImage
  cases hm : t.mismatches with
  | none => rfl
  | some l =>
    have hl := h l hm
    refine padTo_length 62 _ ?_
    simp only [List.length_append, mismatchImage_length, List.length_cons, List.length_nil]
    omega

theorem DepositRecord.image_length {r : DepositRecord} (h : r.ListsFit) (slot : Slot) (now : Nat) :
    (r.image slot now).length = 233 := by
  obtain ⟨hb, ht⟩ := h
  have hpad : (padTo 36 (r.breakdown.flatMap BreakdownEntry.image)).length = 36 :=
    padTo_length 36 _ (by rw [breakdownImage_length]; omega)
  have hres : (resultImage r.result).length = 85 := by
    cases hr : r.result with
    | none => rfl
    | some t => simp [resultImage, Settlement.image_eq, Settlement.listImage_length (ht t hr)]
  simp only [DepositRecord.image_eq, List.length_append, DepositRecord.headImage_length, hpad, cellsImage_length,
    DepositRecord.countsImage_length, hres]

/-! ### Where the parts stand -/

section
variable {r : DepositRecord} {slot : Slot} {now : Nat} {off k len : Nat}

theorem DepositRecord.image_drop_head :
    (r.image slot now).drop 18 = padTo 36 (r.breakdown.flatMap BreakdownEntry.image) ++
      (r.cells.toList.flatMap TallyCell.image ++ (r.countsImage now ++ resultImage r.result)) := by
  rw [DepositRecord.image_eq]
  exact List.drop_left' rfl

theorem DepositRecord.image_drop_breakdown (h : r.breakdown.length ≤ 12) :
    (r.image slot now).drop 54 =
      r.cells.toList.flatMap TallyCell.image ++ (r.countsImage now ++ resultImage r.result) := by
  rw [← List.drop_drop (i := 36) (j := 18), DepositRecord.image_drop_head]
  exact List.drop_left' (padTo_length 36 _ (by rw [breakdownImage_length]; omega))

theorem DepositRecord.image_drop_cells (h : r.breakdown.length ≤ 12) :
    (r.image slot now).drop 126 = r.countsImage now ++ resultImage r.result := by
  rw [← List.drop_drop (i := 72) (j := 54), DepositRecord.image_drop_breakdown h]
  exact List.drop_left' (cellsImage_length r.cells)

theorem DepositRecord.image_drop_counts (h : r.breakdown.length ≤ 12) :
    (r.image slot now).drop 148 = resultImage r.result := by
  rw [← List.drop_drop (i := 22) (j := 126), DepositRecord.image_drop_cells h]
  exact List.drop_left' rfl

theorem DepositRecord.field_head (h : off + len ≤ 18) :
    field (r.image slot now) off len = field (r.headImage slot) off len := by
  rw [DepositRecord.image_eq, field_append_left _ (by simpa using h)]

theorem DepositRecord.field_breakdown {j : Nat} {e : BreakdownEntry} (he : r.breakdown[j]? = some e)
    (hoff : off = 18 + (3 * j + k)) (hk : k + len ≤ 3) :
    field (r.image slot now) off len = field e.image k len := by
  rw [hoff, ← field_drop, DepositRecord.image_drop_head, padTo, List.append_assoc]
  exact field_flatMap BreakdownEntry.image_length hk he _

theorem DepositRecord.field_cell (h : r.breakdown.length ≤ 12) (j : DenomIndex)
    (hoff : off = 54 + (6 * j.val + k)) (hk : k + len ≤ 6) :
    field (r.image slot now) off len = field r.cells[j.val].image k len := by
  rw [hoff, ← field_drop, DepositRecord.image_drop_breakdown h]
  exact field_flatMap TallyCell.image_length hk (by simp) _

theorem DepositRecord.field_counts (h : r.breakdown.length ≤ 12) (hoff : off = 126 + k) (hk : k + len ≤ 22) :
    field (r.image slot now) off len = field (r.countsImage now) k len := by
  rw [hoff, ← field_drop, DepositRecord.image_drop_cells h, field_append_left _ (by simpa using hk)]

theorem DepositRecord.byteAt_counts (h : r.breakdown.length ≤ 12) (hoff : off = 126 + k) (hk : k < 22) :
    byteAt (r.image slot now) off = byteAt (r.countsImage now) k := by
  rw [← BitVec.toNat_inj, ← field_one, ← field_one]
  exact DepositRecord.field_counts h hoff hk

theorem DepositRecord.field_result (h : r.breakdown.length ≤ 12) (hoff : off = 148 + k) :
    field (r.image slot now) off len = field (resultImage r.result) k len := by
  rw [hoff, ← field_drop, DepositRecord.image_drop_counts h]

end

/-! ### The values of the fields -/

theorem natOf_singleton (b : Byte) : natOf [b] = b.toNat := by
  simp [natOf]

theorem natByte_toNat (n : Nat) : (natByte n).toNat = n % 256 :=
  BitVec.toNat_ofNat n 8

/-- R167: a number that fits its bytes is what they spell. -/
theorem natOf_bytesOf_of_lt {n v : Nat} (h : v < 256 ^ n) : natOf (bytesOf n v) = v := by
  rw [natOf_bytesOf, Nat.mod_eq_of_lt h]

/-- R167: a word is what its own bytes spell. -/
theorem natOf_bytesOf_toNat (n : Nat) (b : BitVec (8 * n)) : natOf (bytesOf n b.toNat) = b.toNat :=
  natOf_bytesOf_of_lt (by have h := b.isLt; rwa [pow_mul] at h)

theorem natOf_natByte_of_lt {n : Nat} (h : n < 256) : natOf [natByte n] = n := by
  rw [natOf_singleton, natByte_toNat, Nat.mod_eq_of_lt h]

theorem idleMinutes_lt (now : Nat) (idle : Option Nat) : idleMinutes now idle < 256 ^ 2 := by
  cases idle with
  | none => exact Nat.pos_of_ne_zero (by decide)
  | some start => exact Nat.lt_of_le_of_lt (Nat.min_le_left _ _) (by decide)

section
variable {r : DepositRecord} (slot : Slot) (now : Nat)

/-- R178: the fields of a record image before the breakdown. -/
theorem DepositRecord.image_head_fields (hb : r.breakdown.length ≤ 12) :
    let a := r.image slot now
    field a 0 1 = slot.val ∧ field a 1 1 = (recordStateByte (some r.state)).toNat ∧
    field a 2 4 = r.reference.toNat ∧ field a 6 3 = r.customer.toNat ∧ field a 9 1 = r.currency.val ∧
    field a 10 1 = r.custody.byte.toNat ∧ field a 11 6 = r.declaredTotal % 2 ^ 48 ∧
    field a 17 1 = r.breakdown.length := by
  dsimp only
  refine ⟨?_, ?_, ?_, ?_, ?_, ?_, ?_, ?_⟩ <;> rw [DepositRecord.field_head (by decide)]
  · exact natOf_natByte_of_lt (by omega)
  · exact natOf_singleton _
  · exact natOf_bytesOf_toNat 4 r.reference
  · exact natOf_bytesOf_toNat 3 r.customer
  · exact natOf_natByte_of_lt (by omega)
  · exact natOf_singleton _
  · exact natOf_bytesOf 6 _
  · exact natOf_natByte_of_lt (by omega)

/-- R178: the fields of one entry of the breakdown. -/
theorem DepositRecord.image_breakdown_fields {j : Nat} {e : BreakdownEntry} (he : r.breakdown[j]? = some e) :
    let a := r.image slot now
    field a (18 + 3 * j) 1 = e.index.val ∧ field a (19 + 3 * j) 2 = e.count % 65536 := by
  dsimp only
  rw [DepositRecord.field_breakdown (k := 0) he (by omega) (by omega),
    DepositRecord.field_breakdown (k := 1) he (by omega) (by omega)]
  exact ⟨natOf_natByte_of_lt (by omega), natOf_bytesOf 2 _⟩

/-- R178: the three cells of one denomination index. -/
theorem DepositRecord.image_cell_fields (hb : r.breakdown.length ≤ 12) (j : DenomIndex) :
    let a := r.image slot now
    field a (54 + 6 * j.val) 2 = r.cells[j.val].fit % 65536 ∧
    field a (56 + 6 * j.val) 2 = r.cells[j.val].unfit % 65536 ∧
    field a (58 + 6 * j.val) 2 = r.cells[j.val].suspect % 65536 := by
  dsimp only
  rw [DepositRecord.field_cell (k := 0) hb j (by omega) (by omega),
    DepositRecord.field_cell (k := 2) hb j (by omega) (by omega),
    DepositRecord.field_cell (k := 4) hb j (by omega) (by omega)]
  exact ⟨natOf_bytesOf 2 _, natOf_bytesOf 2 _, natOf_bytesOf 2 _⟩

/-- R178: the counts of notes behind the cells. -/
theorem DepositRecord.image_count_fields (hb : r.breakdown.length ≤ 12) :
    let a := r.image slot now
    field a 126 2 = r.unrecognized % 65536 ∧ field a 128 2 = r.returned % 65536 ∧
    field a 130 2 = r.lost % 65536 ∧ field a 132 4 = r.collected % 2 ^ 32 ∧
    field a 136 4 = r.voided % 2 ^ 32 := by
  dsimp only
  rw [DepositRecord.field_counts (k := 0) hb rfl (by decide), DepositRecord.field_counts (k := 2) hb rfl (by decide),
    DepositRecord.field_counts (k := 4) hb rfl (by decide), DepositRecord.field_counts (k := 6) hb rfl (by decide),
    DepositRecord.field_counts (k := 10) hb rfl (by decide)]
  exact ⟨natOf_bytesOf 2 _, natOf_bytesOf 2 _, natOf_bytesOf 2 _, natOf_bytesOf 4 _, natOf_bytesOf 4 _⟩

/-- R178: the feeding set as a byte. -/
theorem DepositRecord.image_feeding (hb : r.breakdown.length ≤ 12) :
    let a := r.image slot now
    (∀ p : PortId, (byteAt a 140).getLsbD p.val = r.feeding[p.val]) ∧ (byteAt a 140).toNat < 16 := by
  dsimp only
  have hbyte : byteAt (r.image slot now) 140 = bitsByte r.feeding.toList :=
    DepositRecord.byteAt_counts (k := 14) hb rfl (by decide)
  have hlen : r.feeding.toList.length = 4 := Vector.length_toList
  rw [hbyte]
  refine ⟨fun p => ?_, ?_⟩
  · rw [bitsByte_getLsbD _ (by omega)]
    simp
  · have hlt := bitsByte_lt (bits := r.feeding.toList) (by omega)
    rwa [hlen] at hlt

/-- R178: the counts and sets behind the feeding set, and the idle timer. -/
theorem DepositRecord.image_state_fields (hb : r.breakdown.length ≤ 12) :
    let a := r.image slot now
    field a 141 1 = r.pending % 256 ∧ field a 142 1 = r.reopens % 256 ∧
    byteAt a 143 = r.holds.byte ∧ byteAt a 144 = r.flags.byte ∧
    field a 145 1 = (if r.idleSince = none then 0 else 1) ∧
    field a 146 2 = idleMinutes now r.idleSince := by
  dsimp only
  rw [DepositRecord.field_counts (k := 15) hb rfl (by decide), DepositRecord.field_counts (k := 16) hb rfl (by decide),
    DepositRecord.byteAt_counts (k := 17) hb rfl (by decide), DepositRecord.byteAt_counts (k := 18) hb rfl (by decide),
    DepositRecord.field_counts (k := 19) hb rfl (by decide), DepositRecord.field_counts (k := 20) hb rfl (by decide)]
  refine ⟨(natOf_singleton _).trans (natByte_toNat _), (natOf_singleton _).trans (natByte_toNat _), rfl, rfl,
    (natOf_singleton _).trans ?_, natOf_bytesOf_of_lt (idleMinutes_lt now r.idleSince)⟩
  cases r.idleSince <;> rfl

/-- R178: without a result its bytes are zero. -/
theorem DepositRecord.image_no_result (hb : r.breakdown.length ≤ 12) (ht : r.result = none) {j : Nat}
    (hj : 148 ≤ j) : byteAt (r.image slot now) j = 0 := by
  obtain ⟨k, rfl⟩ := Nat.exists_eq_add_of_le hj
  have hzero : resultImage none = padTo 85 [] := rfl
  rw [← byteAt_drop, DepositRecord.image_drop_counts hb, ht, hzero, byteAt_padTo (Nat.zero_le k)]

/-- R178: the fields of a result before its mismatch list. -/
theorem DepositRecord.image_result_fields (hb : r.breakdown.length ≤ 12) {t : Settlement} (ht : r.result = some t) :
    let a := r.image slot now
    field a 148 1 = 1 ∧ field a 149 1 = t.outcome.byte.toNat ∧ field a 150 6 = t.counted % 2 ^ 48 ∧
    field a 156 6 = t.suspect % 2 ^ 48 ∧ field a 162 8 = (BitVec.ofInt 64 t.difference).toNat ∧
    field a 170 1 = (if t.suspectMark then 1 else 0) := by
  dsimp only
  rw [DepositRecord.field_result (k := 0) hb rfl, DepositRecord.field_result (k := 1) hb rfl,
    DepositRecord.field_result (k := 2) hb rfl, DepositRecord.field_result (k := 8) hb rfl,
    DepositRecord.field_result (k := 14) hb rfl, DepositRecord.field_result (k := 22) hb rfl, ht]
  refine ⟨rfl, natOf_singleton _, natOf_bytesOf 6 _, natOf_bytesOf 6 _,
    natOf_bytesOf_toNat 8 (BitVec.ofInt 64 t.difference), (natOf_singleton _).trans ?_⟩
  cases t.suspectMark <;> rfl

/-- R178: where the mismatch list of a result stands. -/
theorem DepositRecord.field_mismatches (hb : r.breakdown.length ≤ 12) {t : Settlement} (ht : r.result = some t)
    {off k : Nat} (hoff : off = 171 + k) (len : Nat) :
    field (r.image slot now) off len = field t.listImage k len := by
  have hdrop : (resultImage (some t)).drop 23 = t.listImage := rfl
  rw [DepositRecord.field_result (k := 23 + k) hb (by omega), ht, ← field_drop, hdrop]

/-- R178: a result without a mismatch list. -/
theorem DepositRecord.image_no_mismatches (hb : r.breakdown.length ≤ 12) {t : Settlement} (ht : r.result = some t)
    (hm : t.mismatches = none) : field (r.image slot now) 171 1 = 0 := by
  rw [DepositRecord.field_mismatches slot now hb ht (k := 0) rfl, Settlement.listImage, hm]
  rfl

/-- R178: the fields of a mismatch list. -/
theorem DepositRecord.image_mismatch_fields (hb : r.breakdown.length ≤ 12) {t : Settlement} (ht : r.result = some t)
    {l : List Mismatch} (hm : t.mismatches = some l) (hl : l.length ≤ 12) :
    let a := r.image slot now
    field a 171 1 = 1 ∧ field a 172 1 = l.length ∧
    ∀ j m, l[j]? = some m → field a (173 + 5 * j) 1 = m.index.val ∧
      field a (174 + 5 * j) 4 = (BitVec.ofInt 32 m.difference).toNat := by
  have hlist : t.listImage = padTo 62 ([1, natByte l.length] ++ l.flatMap Mismatch.image) := by
    rw [Settlement.listImage, hm]
  have hentry {j : Nat} {m : Mismatch} (hj : l[j]? = some m) {off k len : Nat} (hoff : off = 173 + (5 * j + k))
      (hk : k + len ≤ 5) : field (r.image slot now) off len = field m.image k len := by
    rw [DepositRecord.field_mismatches slot now hb ht (k := 2 + (5 * j + k)) (by omega), ← field_drop, hlist, padTo,
      List.append_assoc]
    exact field_flatMap Mismatch.image_length hk hj _
  dsimp only
  refine ⟨?_, ?_, fun j m hj => ⟨?_, ?_⟩⟩
  · rw [DepositRecord.field_mismatches slot now hb ht (k := 0) rfl, hlist]
    rfl
  · rw [DepositRecord.field_mismatches slot now hb ht (k := 1) rfl, hlist]
    exact natOf_natByte_of_lt (by omega)
  · exact (hentry hj (k := 0) rfl (by decide)).trans (natOf_natByte_of_lt (by omega))
  · exact (hentry hj (k := 1) (by omega) (by decide)).trans <|
      natOf_bytesOf_toNat 4 (BitVec.ofInt 32 m.difference)

end

end Sys2Proof.Machine
end

section
/-! PROOFS. Look Up (R34). -/

namespace Sys2Proof.Machine

section
variable {s : State} {d : LookUpFields}

/-- R34: a selector other than 0 and 1 is BAD_FIELD. -/
theorem lookUpRule_badSelector (h : 1 < d.selector.toNat) : lookUpRule d.body s = refuse s .badField := by
  have h0 : d.selector ≠ 0 := by rintro h0; simp [h0] at h
  have h1 : d.selector ≠ 1 := by rintro h1; simp [h1] at h
  simp only [lookUpRule, readLookUp_body, h0, h1, if_false]

/-- R34: selector 0 looks a record up by its reference. -/
theorem lookUpRule_byReference (h : d.selector.toNat = 0) :
    lookUpRule d.body s = withRecord s d.value fun i r => accept s (r.image i s.now) := by
  have h0 : d.selector = 0 := BitVec.eq_of_toNat_eq h
  simp only [lookUpRule, readLookUp_body, h0, if_true]

/-- R34: selector 1 with a number above 127 is BAD_FIELD. -/
theorem lookUpRule_badSlot (h : d.selector.toNat = 1) (hv : 127 < d.value.toNat) :
    lookUpRule d.body s = refuse s .badField := by
  have h1 : d.selector = 1 := BitVec.eq_of_toNat_eq h
  have h0 : (1 : Byte) ≠ 0 := by decide
  have hlt : ¬ d.value.toNat < 128 := by omega
  simp only [lookUpRule, readLookUp_body, h1, h0, if_true, if_false, dif_neg hlt]

/-- R34: selector 1 looks a record up by its slot. -/
theorem lookUpRule_bySlot (h : d.selector.toNat = 1) {i : Slot} (hi : d.value.toNat = i.val) :
    (s.record? i = none → lookUpRule d.body s = accept s [natByte i.val, 0]) ∧
    ∀ r, s.record? i = some r → lookUpRule d.body s = accept s (r.image i s.now) := by
  have h1 : d.selector = 1 := BitVec.eq_of_toNat_eq h
  have h0 : (1 : Byte) ≠ 0 := by decide
  have hlt : d.value.toNat < 128 := hi ▸ i.isLt
  obtain rfl : (⟨d.value.toNat, hlt⟩ : Slot) = i := Fin.ext hi
  refine ⟨fun hr => ?_, fun r hr => ?_⟩
  · simp only [lookUpRule, readLookUp_body, h1, h0, if_true, if_false, dif_pos hlt, hr]
    rfl
  · simp only [lookUpRule, readLookUp_body, h1, h0, if_true, if_false, dif_pos hlt, hr]

end

/-- Settles O20: a record that is found is answered by its image, whose parts hold the fields. -/
theorem lookUpAnswersTheRecord : Obligations.LookUpAnswersTheRecord := by
  intro s d h refuses shows listsFit
  have hshows {i : Slot} {r : DepositRecord} (hfit : listsFit r)
      (hrule : lookUpRule d.body s = accept s (r.image i s.now)) : shows i r := by
    have hb : r.breakdown.length ≤ 12 := hfit.1
    have hfits : r.ListsFit := ⟨hb, fun t ht l => hfit.2 t l ht⟩
    obtain ⟨f0, f1, f2, f6, f9, f10, f11, f17⟩ := DepositRecord.image_head_fields i s.now hb
    obtain ⟨f126, f128, f130, f132, f136⟩ := DepositRecord.image_count_fields i s.now hb
    obtain ⟨f140, f140lt⟩ := DepositRecord.image_feeding i s.now hb
    obtain ⟨f141, f142, f143, f144, f145, f146⟩ := DepositRecord.image_state_fields i s.now hb
    refine ⟨r.image i s.now, execRequest_accepted h hrule, DepositRecord.image_length hfits i s.now,
      f0, f1, f2, f6, f9, f10, f11, f17, fun j e => DepositRecord.image_breakdown_fields i s.now,
      DepositRecord.image_cell_fields i s.now hb, f126, f128, f130, f132, f136, f140, f140lt, f141, f142, f143, f144,
      f145, f146.trans ?_, fun ht j hj _ => DepositRecord.image_no_result i s.now hb ht hj, fun t ht => ?_⟩
    · cases r.idleSince <;> rfl
    · obtain ⟨f148, f149, f150, f156, f162, f170⟩ := DepositRecord.image_result_fields i s.now hb ht
      exact ⟨f148, f149, f150, f156, f162, f170, DepositRecord.image_no_mismatches i s.now hb ht,
        fun l hm => DepositRecord.image_mismatch_fields i s.now hb ht hm (hfit.2 t l ht hm)⟩
  refine ⟨fun hsel => execRequest_refused h (lookUpRule_badSelector hsel), fun hsel => ?byReference,
    fun hsel => ?bySlot⟩
  case byReference =>
    have hrule := lookUpRule_byReference (s := s) hsel
    obtain ⟨hzero, hnone⟩ := execRequest_unnamed h hrule
    exact ⟨hzero, hnone, fun i r hn hfit => hshows hfit (hrule.trans (withRecord_named hn _))⟩
  case bySlot =>
    refine ⟨fun hv => execRequest_refused h (lookUpRule_badSlot hsel hv), fun i hi => ?_⟩
    obtain ⟨hfree, hfilled⟩ := lookUpRule_bySlot (s := s) hsel hi
    exact ⟨fun hr => execRequest_accepted h (hfree hr), fun r hr hfit => hshows hfit (hfilled r hr)⟩

end Sys2Proof.Machine
end

section
/-! PROOFS. An accepted Feed Start (R40, R41, R54, R57). -/

namespace Sys2Proof.Machine

/-! ### The record that takes the feed (R40, R41) -/

/-- R56 test 8: a feeding set without some transport has not all four. -/
theorem DepositRecord.members_length_ne_four {r : DepositRecord} {x : PortId} (h : r.feeding[x.val] = false) :
    r.members.length ≠ 4 := by
  intro h4
  have hall := List.length_filter_eq_length_iff.1 (h4.trans (List.length_finRange (n := 4)).symm)
  exact Bool.false_ne_true (h.symm.trans (hall x (List.mem_finRange x)))

/-- R40: an open record is COUNTING under its feed, and keeps its result and its reopen count. -/
theorem DepositRecord.takeFeed_of_open {r : DepositRecord} (h : r.state = .declared ∨ r.state = .counting)
    (p : PortId) :
    r.takeFeed p = { r with state := .counting, feeding := r.feeding.set p.val true, idleSince := none } := by
  unfold DepositRecord.takeFeed
  rcases h with h | h <;> simp only [h]

/-- R41: a settled record loses its result and counts one more reopen. -/
theorem DepositRecord.takeFeed_of_settled {r : DepositRecord} (h : r.state = .balanced ∨ r.state = .discrepant)
    (p : PortId) :
    r.takeFeed p = { r with
      state := .counting, feeding := r.feeding.set p.val true, idleSince := none
      result := none, reopens := r.reopens + 1 } := by
  unfold DepositRecord.takeFeed
  rcases h with h | h <;> simp only [h]

/-! ### The port that gets the feed (R54, R57) -/

theorem State.send_setRecord (s : State) (i : Slot) (r : Option DepositRecord) (p : PortId) (m : OutMessage) :
    (s.setRecord i r).send p m = (s.send p m).setRecord i r := by
  simp only [State.send_eq]
  rfl

theorem State.sendIf_setRecord (s : State) (i : Slot) (r : Option DepositRecord) (say : Bool) (p : PortId)
    (m : OutMessage) : (s.setRecord i r).sendIf say p m = (s.sendIf say p m).setRecord i r := by
  cases say
  · rfl
  · exact s.send_setRecord i r p m

/-- A message sent or not to a port just written, which is not DOWN. -/
theorem State.sendIf_setPort {q : Port} (h : q.isDown = false) (s : State) (say : Bool) (p : PortId)
    (m : OutMessage) :
    (s.setPort p q).sendIf say p m = s.setPort p { q with out := q.out ++ if say then [m] else [] } := by
  cases say
  · simp [State.sendIf]
  · exact State.send_setPort h s p m

/-- R57: the port of an accepted Feed Start on the record `r` of slot `i`. -/
def Port.opensFeed (q : Port) (i : Slot) (r : DepositRecord) (full : Bool) : Port :=
  { q with
    state := .feeding (Feed.opened i r.reference full)
    refused := 0
    out := q.out ++ [.feedAccept r.reference r.currency] ++
      if full then [.stop (Feed.opened i r.reference full).stop false] else [] }

/-- R57: an accepted Feed Start changes one port and one record. -/
theorem State.openFeed_eq (s : State) (p : PortId) (i : Slot) (r : DepositRecord) :
    s.openFeed p i r =
      (s.setPort p ((s.port p).opensFeed i r (s.pocketFull p))).setRecord i (some (r.takeFeed p)) := by
  unfold State.openFeed
  simp only [State.setFeed, State.modPort, State.port_setPort_self, State.setPort_setPort]
  rw [State.send_setRecord, State.send_setPort rfl, State.sendIf_setRecord, State.sendIf_setPort rfl]
  rfl

/-! ### The tests that an accepted Feed Start passes (R56) -/

/-- R56 tests 7 to 9: the record takes one more feed. -/
structure DepositRecord.TakesFeed (r : DepositRecord) : Prop where
  notHeld : r.state ≠ .held
  notSealed : r.state ≠ .sealed
  room : ∃ x : PortId, r.feeding[x.val] = false
  reopens : r.state = .balanced ∨ r.state = .discrepant → r.reopens < 3

theorem State.judgeFeed_accepted {r : DepositRecord} (h : r.TakesFeed) (s : State) (p : PortId) (i : Slot) :
    s.judgeFeed p i r = s.openFeed p i r := by
  obtain ⟨x, hx⟩ := h.room
  unfold State.judgeFeed
  rw [if_neg (not_or.2 ⟨h.notHeld, h.notSealed⟩), if_neg (DepositRecord.members_length_ne_four hx),
    if_neg fun hs => absurd hs.2 (Nat.not_le.2 (h.reopens hs.1))]

/-- R56 tests 1 to 6: a Feed Start on a READY port that names a record comes to the tests of that record. -/
theorem State.feedStart_named {s : State} {p : PortId} {ref : Reference} {i : Slot} {r : DepositRecord}
    (hready : (s.port p).state = .ready) (hwarning : s.warning = false) (hconfig : s.configFault = false)
    (hn : s.Named ref i r) : s.feedStart p ref = s.judgeFeed p i r := by
  obtain ⟨hr, -, h0, -⟩ := id hn
  simp only [State.feedStart, hready, hwarning, hconfig, Bool.false_eq_true, if_false, if_neg h0,
    State.slotOf?_of_named hn, hr]

/-- A Feed Start on a part that runs. -/
theorem exec_feedStart {s : State} (hrun : s.running = true) (p : PortId) (ref : Reference) :
    exec (.feedStart p ref) s = .next (s.feedStart p ref) := by
  have harm : exec (.feedStart p ref) s = execFeedStart p ref s := rfl
  rw [harm, execFeedStart, State.whenRunning_of hrun]

/-- Settles O40: the record passes every test of R56, and `openFeed` then changes its port and itself. -/
theorem feedStartOpensAFeed : Obligations.FeedStartOpensAFeed := by
  intro s p ref i r hrun hready hwarning hconfig hn hroom settled hstate q full f q'
  have htakes : r.TakesFeed := by
    refine ⟨fun h => ?_, fun h => ?_, hroom, fun hs => ?_⟩
    · simp [settled, h] at hstate
    · simp [settled, h] at hstate
    · rcases hs with h | h <;> simpa [settled, h] using hstate
  obtain ⟨-, href, -, -⟩ := id hn
  have hport : q.opensFeed i r full = q' := by
    simp only [Port.opensFeed, href]
    rfl
  have hexec : exec (.feedStart p ref) s =
      .next ((s.setPort p q').setRecord i (some (r.takeFeed p))) := by
    rw [exec_feedStart hrun, State.feedStart_named hready hwarning hconfig hn, State.judgeFeed_accepted htakes,
      State.openFeed_eq, ← hport]
    rfl
  by_cases hs : settled
  · rw [DepositRecord.takeFeed_of_settled hs] at hexec
    exact ⟨none, r.reopens + 1, fun _ => ⟨rfl, rfl⟩, fun hnot => absurd hs hnot, hexec⟩
  · have hopen : r.state = .declared ∨ r.state = .counting := by
      rcases hstate with h | h | ⟨h, -⟩
      exacts [.inl h, .inr h, absurd h hs]
    rw [DepositRecord.takeFeed_of_open hopen] at hexec
    exact ⟨r.result, r.reopens, fun hyes => absurd hyes hs, fun _ => ⟨rfl, rfl⟩, hexec⟩

end Sys2Proof.Machine
end

section
/-! PROOFS. A Note Report on a port without a feed (R52, R75, R77, R88). -/

namespace Sys2Proof.Machine

/-! ### The report as it is read (R179) and its window test (R75) -/

/-- The verdict of a Note Report (R179). -/
def reportedVerdict (b : Byte) : Verdict :=
  if b = 0 then .genuine else if b = 1 then .suspect else .unreadable

/-- R179, R180: a report whose fields have a meaning is read field by field. -/
theorem readReport_of_valid {index fitness verdict : Byte} (h : noteFieldsValid index fitness verdict = true)
    (seq : Byte) :
    readReport seq index fitness verdict =
      some ⟨seq, reportedIndex index, reportedFitness fitness, reportedVerdict verdict⟩ := by
  have hzero : fitness.toNat = 0 ↔ fitness = 0 := BitVec.toNat_inj (y := 0#8)
  simp only [readReport, h, if_true, reportedIndex, reportedFitness, reportedVerdict, hzero]

theorem Port.windowRefuses_iff {q : Port} {seq : Byte} : q.windowRefuses seq = true ↔ q.WindowRefuses seq := by
  simp [Port.windowRefuses, Port.WindowRefuses, Config.windowCapacity]

/-! ### The route to a stack (R88) -/

/-- A port written back in the same state keeps its feed. -/
theorem State.feed?_setPort_of_state_eq {s : State} {p : PortId} {q : Port} (h : q.state = (s.port p).state) :
    (s.setPort p q).feed? p = s.feed? p := by
  simp only [State.feed?, State.port_setPort_self, Port.feed?, h]

theorem State.modFeed_of_no_feed {s : State} {p : PortId} (h : s.feed? p = none) (g : Feed → Feed) :
    s.modFeed p g = s := by
  simp only [State.modFeed, h]

theorem State.retestPocketFull_of_no_feed {s : State} {p : PortId} (h : s.feed? p = none) (say : Bool) :
    s.retestPocketFull say p = s := by
  simp only [State.retestPocketFull, h]

/-- R88 step 1: the entry that a report routed to the pocket `k` adds to the window. -/
def State.entryOf (s : State) (n : Report) (k : Pocket) (i : Option Slot) : Entry :=
  { seq := n.seq, pocket := k, slot := i, index := n.index, fitness := n.fitness, deadline := s.now + s.flightLimit }

/-- R88 steps 1 and 2: the port with the entry in its window and the Pocket Order sent. -/
def Port.ordered (q : Port) (e : Entry) : Port :=
  { q with window := q.window ++ [e], out := q.out ++ [.pocketOrder e.seq e.pocket] }

@[simp] theorem Port.ordered_state (q : Port) (e : Entry) : (q.ordered e).state = q.state := rfl
@[simp] theorem Port.routed_state (q : Port) (e : Entry) : (q.routed e).state = q.state := rfl

/-- R88: the entry, the Pocket Order and the in-flight count of its pocket are what a routed report does to a
port. -/
theorem Port.modStack_ordered (q : Port) (e : Entry) :
    (q.ordered e).modStack e.pocket (fun c => { c with inFlight := c.inFlight + 1 }) = q.routed e := by
  have hzero : e.pocket.val = 0 ↔ e.pocket = 0 := (Fin.ext_iff (b := 0)).symm
  have hone : e.pocket.val = 1 ↔ e.pocket = 1 := (Fin.ext_iff (b := 1)).symm
  by_cases h0 : e.pocket = 0
  · simp [Port.modStack, Port.ordered, Port.routed, h0]
  · by_cases h1 : e.pocket = 1
    · simp [Port.modStack, Port.ordered, Port.routed, h1]
    · simp [Port.modStack, Port.ordered, Port.routed, hzero, hone, h0, h1]

theorem State.orderPocket_eq {s : State} {p : PortId} (h : (s.port p).isDown = false) (n : Report) (k : Pocket)
    (i : Option Slot) : s.orderPocket p n k i = s.setPort p ((s.port p).ordered (s.entryOf n k i)) := by
  rw [State.orderPocket, State.modPort, State.send_setPort]
  · rfl
  · exact h

/-- R77, R88: without a feed, a route to a stack changes its port alone. -/
theorem State.routeStack_of_no_feed {s : State} {p : PortId} (hup : (s.port p).isDown = false)
    (hfeed : s.feed? p = none) (n : Report) (k : Pocket) (i : Option Slot) :
    s.routeStack p n k i = s.setPort p ((s.port p).routed (s.entryOf n k i)) := by
  have hordered : (s.setPort p ((s.port p).ordered (s.entryOf n k i))).feed? p = none := by
    rw [State.feed?_setPort_of_state_eq (Port.ordered_state _ _), hfeed]
  have hrouted : (s.setPort p ((s.port p).routed (s.entryOf n k i))).feed? p = none := by
    rw [State.feed?_setPort_of_state_eq (Port.routed_state _ _), hfeed]
  have hstack := (s.port p).modStack_ordered (s.entryOf n k i)
  rw [State.routeStack, State.orderPocket_eq hup, State.modFeed_of_no_feed hordered, State.modPort,
    State.port_setPort_self, State.setPort_setPort]
  exact (congrArg (fun q => (s.setPort p q).retestPocketFull true p) hstack).trans
    (State.retestPocketFull_of_no_feed hrouted true)

/-! ### The event -/

/-- R135: an event that leaves the backlog as it was is not judged. -/
theorem State.judged_of_backlog_eq {s : State} {event : State → State} (h : (event s).backlog = s.backlog) :
    s.judged event = event s := by
  simp only [State.judged, State.judgeBacklog, h, if_true]

/-- A Note Report that leaves the backlog as it was, on a part that runs. -/
theorem exec_noteReport_of_backlog_eq {s t : State} {p : PortId} {seq index fitness verdict : Byte}
    (hrun : s.running = true) (ht : s.noteReport p seq index fitness verdict = t) (hb : t.backlog = s.backlog) :
    exec (.noteReport p seq index fitness verdict) s = .next t := by
  have harm : exec (.noteReport p seq index fitness verdict) s = execNoteReport p seq index fitness verdict s := rfl
  subst ht
  rw [harm, execNoteReport, State.whenRunning_of hrun, State.judged_of_backlog_eq hb]

/-- R52: a port that is DOWN discards a Note Report. -/
theorem State.noteReport_of_down {s : State} {p : PortId} (h : (s.port p).state = .down)
    (seq index fitness verdict : Byte) : s.noteReport p seq index fitness verdict = s := by
  rw [State.noteReport, if_pos (Port.isDown_eq_true.2 h)]

/-- R71: a well-formed Note Report of a port that is not DOWN comes to the Router. -/
theorem State.noteReport_of_up {s : State} {p : PortId} (h : (s.port p).state ≠ .down)
    {index fitness verdict : Byte} (hvalid : noteFieldsValid index fitness verdict = true) (seq : Byte) :
    s.noteReport p seq index fitness verdict =
      s.route p ⟨seq, reportedIndex index, reportedFitness fitness, reportedVerdict verdict⟩ := by
  rw [State.noteReport, if_neg (mt Port.isDown_eq_true.1 h), readReport_of_valid hvalid]

/-- R75, R77: without a feed, the window test alone decides between a discard and P0. -/
theorem State.route_of_no_feed {s : State} {p : PortId} (h : s.feed? p = none) (n : Report) :
    ((s.port p).WindowRefuses n.seq → s.route p n = s) ∧
    (¬ (s.port p).WindowRefuses n.seq → s.route p n = s.routeStack p n 0 none) := by
  simp only [State.route, h, ← Port.windowRefuses_iff]
  exact ⟨fun hw => if_pos hw, fun hw => if_neg hw⟩

/-- Settles O43: R52 and the window test of R75 discard the report, and what passes both is routed to P0, where
a port without a feed has neither feed counts nor a stop set to change. -/
theorem noteReportWithoutAFeedGoesToP0 : Obligations.NoteReportWithoutAFeedGoesToP0 := by
  intro s p seq index fitness verdict hrun hvalid hnone q e
  have hfeed : s.feed? p = none := State.feed?_eq_none.2 hnone
  obtain ⟨hrefused, htaken⟩ := State.route_of_no_feed hfeed
    ⟨seq, reportedIndex index, reportedFitness fitness, reportedVerdict verdict⟩
  refine ⟨fun hdiscard => exec_noteReport_of_backlog_eq hrun ?discarded rfl, fun hup hwindow =>
    exec_noteReport_of_backlog_eq hrun ?routed rfl⟩
  case discarded =>
    by_cases hdown : q.state = .down
    · exact State.noteReport_of_down hdown seq index fitness verdict
    · rw [State.noteReport_of_up hdown hvalid]
      exact hrefused (hdiscard.resolve_left hdown)
  case routed =>
    have hup' : q.isDown = false := Bool.eq_false_iff.2 (mt Port.isDown_eq_true.1 hup)
    rw [State.noteReport_of_up hup hvalid, htaken hwindow]
    exact State.routeStack_of_no_feed hup' hfeed _ 0 none

end Sys2Proof.Machine
end

section
/-! PROOFS. What the Pace Governor judges with: every event leaves the effective backlog and H to the judging (R135). -/

namespace Sys2Proof.Machine

/-- What the judging reads besides the backlog: the effective backlog e and H (R135). -/
def State.governor (s : State) : Nat × Nat :=
  (s.effective, s.hysteresis)

theorem State.effective_of_governor {s t : State} (h : t.governor = s.governor) : t.effective = s.effective :=
  congrArg Prod.fst h

theorem State.hysteresis_of_governor {s t : State} (h : t.governor = s.governor) : t.hysteresis = s.hysteresis :=
  congrArg Prod.snd h

/-! ### Repetition -/

/-- What every round of a repetition leaves as it is, the repetition leaves as it is. -/
theorem foldl_keeps {α β γ : Type} (g : β → γ) {f : β → α → β} (h : ∀ t x, g (f t x) = g t) (l : List α) (s : β) :
    g (l.foldl f s) = g s := by
  induction l generalizing s with
  | nil => rfl
  | cons x l ih => exact (ih (f s x)).trans (h s x)

@[simp] theorem foldl_governor {α : Type} {f : State → α → State} (h : ∀ t x, (f t x).governor = t.governor)
    (l : List α) (s : State) : (l.foldl f s).governor = s.governor :=
  foldl_keeps State.governor h l s

@[simp] theorem foldl_backlog {α : Type} {f : State → α → State} (h : ∀ t x, (f t x).backlog = t.backlog)
    (l : List α) (s : State) : (l.foldl f s).backlog = s.backlog :=
  foldl_keeps State.backlog h l s

/-! ### Writes to the ports, the records and the bindings -/

@[simp] theorem State.modPort_governor_backlog (s : State) (p : PortId) (g : Port → Port) :
    (s.modPort p g).governor = s.governor ∧ (s.modPort p g).backlog = s.backlog := ⟨rfl, rfl⟩

@[simp] theorem State.setFeed_governor_backlog (s : State) (p : PortId) (f : Feed) :
    (s.setFeed p f).governor = s.governor ∧ (s.setFeed p f).backlog = s.backlog := ⟨rfl, rfl⟩

@[simp] theorem State.setRecord_governor_backlog (s : State) (i : Slot) (r : Option DepositRecord) :
    (s.setRecord i r).governor = s.governor ∧ (s.setRecord i r).backlog = s.backlog := ⟨rfl, rfl⟩

@[simp] theorem State.setBinding_governor_backlog (s : State) (pl : Place) (b : Binding) :
    (s.setBinding pl b).governor = s.governor ∧ (s.setBinding pl b).backlog = s.backlog := ⟨rfl, rfl⟩

@[simp] theorem State.clockAtLeast_governor_backlog (s : State) (n : Nat) :
    (s.clockAtLeast n).governor = s.governor ∧ (s.clockAtLeast n).backlog = s.backlog := ⟨rfl, rfl⟩

@[simp] theorem State.modFeed_governor_backlog (s : State) (p : PortId) (g : Feed → Feed) :
    (s.modFeed p g).governor = s.governor ∧ (s.modFeed p g).backlog = s.backlog := by
  simp [State.governor, State.hysteresis, State.backlog]

@[simp] theorem State.modRecord_governor_backlog (s : State) (i : Slot) (g : DepositRecord → DepositRecord) :
    (s.modRecord i g).governor = s.governor ∧ (s.modRecord i g).backlog = s.backlog := by
  simp [State.governor, State.hysteresis, State.backlog]

@[simp] theorem State.modBundle_governor_backlog (s : State) (pl : Place) (g : Bundle → Bundle) :
    (s.modBundle pl g).governor = s.governor ∧ (s.modBundle pl g).backlog = s.backlog := by
  simp [State.governor, State.hysteresis, State.backlog]

@[simp] theorem State.send_governor_backlog (s : State) (p : PortId) (m : OutMessage) :
    (s.send p m).governor = s.governor ∧ (s.send p m).backlog = s.backlog := by
  rw [State.send_eq]
  exact State.modPort_governor_backlog s p _

@[simp] theorem State.sendIf_governor_backlog (s : State) (say : Bool) (p : PortId) (m : OutMessage) :
    (s.sendIf say p m).governor = s.governor ∧ (s.sendIf say p m).backlog = s.backlog := by
  cases say <;> simp [State.sendIf]

@[simp] theorem State.setStop_governor_backlog (s : State) (say : Bool) (p : PortId) (new : StopSet) :
    (s.setStop say p new).governor = s.governor ∧ (s.setStop say p new).backlog = s.backlog := by
  rw [State.setStop_eq]
  exact State.modPort_governor_backlog s p _

@[simp] theorem State.setHoldStop_governor_backlog (s : State) (say : Bool) (p : PortId) (on : Bool) :
    (s.setHoldStop say p on).governor = s.governor ∧ (s.setHoldStop say p on).backlog = s.backlog := by
  unfold State.setHoldStop
  split <;> simp

@[simp] theorem State.setPowerStop_governor_backlog (s : State) (p : PortId) (on : Bool) :
    (s.setPowerStop p on).governor = s.governor ∧ (s.setPowerStop p on).backlog = s.backlog := by
  rw [State.setPowerStop_eq]
  exact State.modPort_governor_backlog s p _

@[simp] theorem State.retestPocketFull_governor_backlog (s : State) (say : Bool) (p : PortId) :
    (s.retestPocketFull say p).governor = s.governor ∧ (s.retestPocketFull say p).backlog = s.backlog := by
  unfold State.retestPocketFull
  split <;> simp

/-! ### Operations on records and feeds -/

@[simp] theorem State.holdRecord_governor_backlog (s : State) (say : Bool) (i : Slot) (why : HoldReason) :
    (s.holdRecord say i why).governor = s.governor ∧ (s.holdRecord say i why).backlog = s.backlog := by
  unfold State.holdRecord
  split
  · simp
  · dsimp only
    split <;> simp

@[simp] theorem State.depart_governor_backlog (s : State) (say : Bool) (i : Slot) (p : PortId)
    (why : Option HoldReason) :
    (s.depart say i p why).governor = s.governor ∧ (s.depart say i p why).backlog = s.backlog := by
  cases why <;> simp [State.depart]

@[simp] theorem State.abortFeed_governor_backlog (s : State) (say : Bool) (p : PortId) (why : HoldReason) :
    (s.abortFeed say p why).governor = s.governor ∧ (s.abortFeed say p why).backlog = s.backlog := by
  unfold State.abortFeed
  split <;> simp

/-- R109 to R111: what a jam does once its window is lost. -/
@[simp] theorem State.enterJam_governor_backlog (s : State) (declared : Bool) (p : PortId) :
    (s.enterJam declared p).governor = s.governor ∧ (s.enterJam declared p).backlog = s.backlog := by
  unfold State.enterJam
  split
  · simp
  · dsimp only
    split <;> simp [State.abortAtLimit]

@[simp] theorem State.repeatJam_governor_backlog (s : State) (declared : Bool) (p : PortId) :
    (s.repeatJam declared p).governor = s.governor ∧ (s.repeatJam declared p).backlog = s.backlog := by
  unfold State.repeatJam
  split <;> simp

@[simp] theorem State.leaveJam_governor_backlog (s : State) (p : PortId) :
    (s.leaveJam p).governor = s.governor ∧ (s.leaveJam p).backlog = s.backlog := by
  unfold State.leaveJam
  split
  · simp
  · split <;> simp

@[simp] theorem State.stray_governor_backlog (s : State) (p : PortId) (k : Pocket) :
    (s.stray p k).governor = s.governor ∧ (s.stray p k).backlog = s.backlog := by
  unfold State.stray
  split
  · simp
  · split <;> simp

@[simp] theorem State.completeEnd_governor_backlog (s : State) (p : PortId) :
    (s.completeEnd p).governor = s.governor ∧ (s.completeEnd p).backlog = s.backlog := by
  unfold State.completeEnd
  split
  · simp
  · split
    case h_4 => split <;> simp
    all_goals simp

/-! ### Feed Start, Feed End and the power warning -/

theorem State.refuseReference_governor_backlog (s : State) (p : PortId) :
    (s.refuseReference p).governor = s.governor ∧ (s.refuseReference p).backlog = s.backlog := by
  simp [State.refuseReference]

theorem State.judgeFeed_governor_backlog (s : State) (p : PortId) (i : Slot) (r : DepositRecord) :
    (s.judgeFeed p i r).governor = s.governor ∧ (s.judgeFeed p i r).backlog = s.backlog := by
  unfold State.judgeFeed
  repeat' split
  all_goals simp [State.openFeed]

theorem State.feedStart_governor_backlog (s : State) (p : PortId) (ref : Reference) :
    (s.feedStart p ref).governor = s.governor ∧ (s.feedStart p ref).backlog = s.backlog := by
  unfold State.feedStart
  repeat' split
  all_goals simp [State.refuseReference_governor_backlog, State.judgeFeed_governor_backlog]

theorem State.feedEnd_governor_backlog (s : State) (p : PortId) (count : Nat) :
    (s.feedEnd p count).governor = s.governor ∧ (s.feedEnd p count).backlog = s.backlog := by
  unfold State.feedEnd
  repeat' split
  all_goals simp

theorem State.idleExpiry_governor_backlog (s : State) (i : Slot) :
    (s.idleExpiry i).governor = s.governor ∧ (s.idleExpiry i).backlog = s.backlog := by
  unfold State.idleExpiry
  repeat' split
  all_goals simp

theorem foldl_setPowerStop_governor_backlog (on : Bool) (l : List PortId) (s : State) :
    (l.foldl (fun t p => t.setPowerStop p on) s).governor = s.governor ∧
    (l.foldl (fun t p => t.setPowerStop p on) s).backlog = s.backlog := by
  simp

theorem State.takeAssertion_governor_backlog (s : State) :
    s.takeAssertion.governor = s.governor ∧ s.takeAssertion.backlog = s.backlog := by
  have hfold := foldl_setPowerStop_governor_backlog true (List.finRange 4)
    { s with causes := { s.causes with powerWarning := true } }
  unfold State.takeAssertion
  generalize List.foldl _ _ _ = u at hfold ⊢
  exact hfold

theorem State.assertWarning_governor_backlog (s : State) :
    s.assertWarning.governor = s.governor ∧ s.assertWarning.backlog = s.backlog := by
  unfold State.assertWarning
  dsimp only
  split
  · exact State.takeAssertion_governor_backlog { s with warning := true }
  · exact ⟨rfl, rfl⟩

theorem State.deassertWarning_governor_backlog (s : State) :
    s.deassertWarning.governor = s.governor ∧ s.deassertWarning.backlog = s.backlog := by
  unfold State.deassertWarning
  dsimp only
  split
  · exact foldl_setPowerStop_governor_backlog false (List.finRange 4) { s with warning := false, holdUp := none }
  · exact ⟨rfl, rfl⟩

/-! ### Operations that move bundles through the two lists -/

theorem Touches.governor {p : PortId} {s t : State} (h : Touches p s t) : t.governor = s.governor := by
  rw [h.frame]
  rfl

theorem Assembles.governor {s t : State} (h : Assembles s t) : t.governor = s.governor := by
  rw [h.frame]
  rfl

@[simp] theorem State.enterQueue_governor (s : State) (pl : Place) : (s.enterQueue pl).governor = s.governor := by
  refine (State.send_governor_backlog _ _ _).1.trans ?_
  exact (State.modBundle_governor_backlog s pl _).1

@[simp] theorem State.complete_governor (s : State) (pl : Place) : (s.complete pl).governor = s.governor := by
  unfold State.complete
  split
  · simp
  · exact (State.modBundle_governor_backlog s pl _).1

theorem State.promoteUpTo_governor : ∀ (n : Nat) (s : State), (State.promoteUpTo n s).governor = s.governor
  | 0, _ => rfl
  | n + 1, s => by
    unfold State.promoteUpTo
    split
    · rfl
    · split
      · rfl
      · split
        · exact (State.promoteUpTo_governor n _).trans (State.enterQueue_governor _ _)
        · rfl

@[simp] theorem State.promote_governor (s : State) : s.promote.governor = s.governor :=
  State.promoteUpTo_governor _ s

@[simp] theorem State.lift_governor (s : State) (pl : Place) : (s.lift pl).governor = s.governor := by
  unfold State.lift
  split <;> rfl

@[simp] theorem State.voidBundle_governor (s : State) (pl : Place) : (s.voidBundle pl).governor = s.governor := by
  have hvoid (t : State) (c : Contribution) : (t.voidContribution c).governor = t.governor := by
    unfold State.voidContribution
    repeat' split
    all_goals simp
  unfold State.voidBundle
  split
  · rfl
  · exact foldl_governor hvoid _ s

@[simp] theorem State.loseEntry_governor (s : State) (say : Bool) (pulled : Option Place) (p : PortId) (e : Entry) :
    (s.loseEntry say pulled p e).governor = s.governor := by
  obtain ⟨-, -, -, touches⟩ := State.loseEntry_spec s say pulled p e
  exact touches.governor

@[simp] theorem State.loseWindow_governor (s : State) (say : Bool) (pulled : Option Place) (p : PortId) :
    (s.loseWindow say pulled p).governor = s.governor := by
  simp [State.loseWindow]

@[simp] theorem State.shortClose_governor (s : State) (sel : Bundle → Bool) :
    (s.shortClose sel).state.governor = s.governor :=
  (State.shortClose_frame s sel).governor

@[simp] theorem State.takeJam_governor (s : State) (declared : Bool) (pulled : Option Place) (p : PortId) :
    (s.takeJam declared pulled p).governor = s.governor := by
  unfold State.takeJam
  repeat' split
  all_goals simp

@[simp] theorem State.discardMessage_governor (s : State) (p : PortId) :
    (s.discardMessage p).governor = s.governor := by
  unfold State.discardMessage
  repeat' split
  all_goals simp

/-! ### Notes and their confirmations -/

@[simp] theorem State.orderPocket_governor (s : State) (p : PortId) (n : Report) (k : Pocket) (i : Option Slot) :
    (s.orderPocket p n k i).governor = s.governor := by
  simp [State.orderPocket]

@[simp] theorem State.routeStack_governor (s : State) (p : PortId) (n : Report) (k : Pocket) (i : Option Slot) :
    (s.routeStack p n k i).governor = s.governor := by
  simp [State.routeStack]

@[simp] theorem State.routeSort_governor (s : State) (p : PortId) (n : Report) (pl : Place) (i : Slot)
    (r : DepositRecord) : (s.routeSort p n pl i r).governor = s.governor := by
  simp [State.routeSort]

@[simp] theorem State.searchPocket_governor (s : State) (p : PortId) (n : Report) (key : BundleKey) (i : Slot)
    (r : DepositRecord) (strap : Nat) : (s.searchPocket p n key i r strap).governor = s.governor := by
  unfold State.searchPocket
  repeat' split
  all_goals simp

@[simp] theorem State.routeActive_governor (s : State) (p : PortId) (n : Report) (i : Slot) (r : DepositRecord) :
    (s.routeActive p n i r).governor = s.governor := by
  unfold State.routeActive
  dsimp only
  repeat' split
  all_goals simp

@[simp] theorem State.route_governor (s : State) (p : PortId) (n : Report) : (s.route p n).governor = s.governor := by
  unfold State.route
  repeat' split
  all_goals simp

theorem State.noteReport_governor (s : State) (p : PortId) (seq index fitness verdict : Byte) :
    (s.noteReport p seq index fitness verdict).governor = s.governor := by
  unfold State.noteReport
  repeat' split
  all_goals simp

@[simp] theorem State.completeIfDrained_governor (s : State) (pl : Place) :
    (s.completeIfDrained pl).governor = s.governor := by
  unfold State.completeIfDrained
  repeat' split
  all_goals simp

theorem State.confirmSort_governor (s : State) (p : PortId) (pl : Place) (e : Entry) :
    (s.confirmSort p pl e).governor = s.governor := by
  unfold State.confirmSort
  split <;> simp

theorem State.confirmStack_governor (s : State) (p : PortId) (e : Entry) :
    (s.confirmStack p e).governor = s.governor := by
  unfold State.confirmStack
  dsimp only
  repeat' split
  all_goals simp

theorem State.misroute_governor (s : State) (p : PortId) (e : Entry) (k : Pocket) :
    (s.misroute p e k).governor = s.governor := by
  simp [State.misroute]

/-! ### Jams, cleared pockets and the census -/

theorem State.jamCleared_governor (s : State) (p : PortId) : (s.jamCleared p).governor = s.governor := by
  unfold State.jamCleared
  repeat' split
  all_goals simp

theorem State.flightExpiry_governor (s : State) (p : PortId) (seq : Byte) :
    (s.flightExpiry p seq).governor = s.governor := by
  unfold State.flightExpiry
  dsimp only
  repeat' split
  all_goals simp

@[simp] theorem State.decide_governor (s : State) (presence : Byte) (pl : Place) :
    (s.decide presence pl).governor = s.governor := by
  unfold State.decide
  repeat' split
  all_goals simp

theorem State.pulled_governor (s : State) (pl : Place) (b : Bundle) : (s.pulled pl b).governor = s.governor := by
  unfold State.pulled
  split <;> simp

theorem State.clearSort_governor (s : State) (pl : Place) : (s.clearSort pl).governor = s.governor := by
  unfold State.clearSort
  repeat' split
  all_goals simp [State.pulled_governor]

theorem State.pocketCleared_governor (s : State) (p : PortId) (pocket : Byte) :
    (s.pocketCleared p pocket).governor = s.governor := by
  unfold State.pocketCleared
  repeat' split
  all_goals simp [State.clearStack, State.clearSort_governor]

theorem State.blockPocket_governor (s : State) (presence : Byte) (pl : Place) :
    (s.blockPocket presence pl).governor = s.governor := by
  unfold State.blockPocket
  split <;> simp

theorem State.census_governor (s : State) (p : PortId) (presence : Byte) :
    (s.census p presence).governor = s.governor := by
  simp [State.census, State.blockPocket_governor]

theorem State.unconfirmPort_governor (s : State) (p : PortId) : (s.unconfirmPort p).governor = s.governor := by
  simp [State.unconfirmPort]

theorem State.restartLosses_governor (s : State) (p : PortId) : (s.restartLosses p).governor = s.governor := by
  simp [State.restartLosses]

theorem State.expirePort_governor (s : State) (p : PortId) : (s.expirePort p).governor = s.governor := by
  simp [State.expirePort]

end Sys2Proof.Machine
end

section
/-! PROOFS. The judging of an event's backlog (R135), and the events that have it inside: Stacked, Hello and the hold-up
expiry. -/

namespace Sys2Proof.Machine

/-! ### The judging of an event -/

/-- R135: the judging moves no bundle. -/
theorem State.judgeBacklog_backlog (s : State) (b0 : Nat) (unsaid : Option PortId) :
    (s.judgeBacklog b0 unsaid).backlog = s.backlog := by
  rw [State.judgeBacklog_eq]
  rfl

/-- R135: the effective backlog of `t` is that of `s` after the backlog of `t` has been judged, once. -/
def State.FollowsBacklog (s t : State) : Prop :=
  t.effective =
    if t.backlog = s.backlog then s.effective else effectiveAfter t.backlog s.effective s.hysteresis

namespace State.FollowsBacklog

variable {s t u : State}

/-- An event that moves neither the backlog nor the effective backlog. -/
theorem of_still (he : t.effective = s.effective) (hb : t.backlog = s.backlog) : s.FollowsBacklog t := by
  rw [State.FollowsBacklog, if_pos hb, he]

theorem of_governor_backlog (h : t.governor = s.governor ∧ t.backlog = s.backlog) : s.FollowsBacklog t :=
  of_still (State.effective_of_governor h.1) h.2

theorem refl (s : State) : s.FollowsBacklog s :=
  of_still rfl rfl

/-- What comes before the judged part of an event may move neither e, H nor the backlog. -/
theorem after_still (h : t.governor = s.governor ∧ t.backlog = s.backlog) (hu : t.FollowsBacklog u) :
    s.FollowsBacklog u := by
  rw [State.FollowsBacklog, ← State.effective_of_governor h.1, ← State.hysteresis_of_governor h.1, ← h.2]
  exact hu

/-- What comes after the judging may move neither the effective backlog nor the backlog. -/
theorem then_still (h : s.FollowsBacklog t) (he : u.effective = t.effective) (hb : u.backlog = t.backlog) :
    s.FollowsBacklog u := by
  rw [State.FollowsBacklog, he, hb]
  exact h

theorem then_governor_backlog (h : s.FollowsBacklog t) (hu : u.governor = t.governor ∧ u.backlog = t.backlog) :
    s.FollowsBacklog u :=
  h.then_still (State.effective_of_governor hu.1) hu.2

/-- R135: an event that moves the two lists as it likes, with e and H left to the judging at its end. -/
theorem judgeBacklog (h : t.governor = s.governor) (unsaid : Option PortId) :
    s.FollowsBacklog (t.judgeBacklog s.backlog unsaid) := by
  rw [State.FollowsBacklog, State.judgeBacklog_effective, State.judgeBacklog_backlog, State.effective_of_governor h,
    State.hysteresis_of_governor h]

theorem judged {event : State → State} (h : (event s).governor = s.governor) : s.FollowsBacklog (s.judged event) :=
  judgeBacklog h none

theorem whenRunning {event : State → State} (h : s.FollowsBacklog (event s)) :
    s.FollowsBacklog (s.whenRunning event) := by
  unfold State.whenRunning
  split
  · exact h
  · exact refl s

end State.FollowsBacklog

open State (FollowsBacklog)

/-! ### The events with their judging inside -/

/-- R96, R101: the judging stands before the end of the feed, which moves no bundle. -/
theorem State.confirm_follows (s : State) (p : PortId) (e : Entry) : s.FollowsBacklog (s.confirm p e) := by
  unfold State.confirm
  refine (FollowsBacklog.judgeBacklog ?_ none).then_governor_backlog (State.completeEnd_governor_backlog _ p)
  split
  · exact State.confirmStack_governor _ p e
  · exact State.confirmSort_governor _ p _ e

theorem State.stackedMessage_follows (s : State) (p : PortId) (seq pocket : Byte) :
    s.FollowsBacklog (s.stackedMessage p seq pocket) := by
  unfold State.stackedMessage
  split
  · exact .refl s
  · split
    · exact .judged (State.discardMessage_governor s p)
    · unfold State.stacked
      split
      · exact .of_governor_backlog (State.stray_governor_backlog s p _)
      · split
        · exact State.confirm_follows s p _
        · exact .judged (State.misroute_governor s p _ _)

/-- R68, R165: the judging stands behind the census, and before the Hello Answer. -/
theorem State.hello_follows (s : State) (p : PortId) (presence : Byte) : s.FollowsBacklog (s.hello p presence) := by
  unfold State.hello
  refine (FollowsBacklog.judgeBacklog ?_ (some p)).then_governor_backlog
    (State.modPort_governor_backlog _ p _)
  rw [State.census_governor, State.unconfirmPort_governor]
  exact State.restartLosses_governor s p

/-- R156: the judging stands behind the losses, and before End Refused. -/
theorem State.holdUpExpiry_follows (s : State) : s.FollowsBacklog s.holdUpExpiry := by
  have hsend (l : List PortId) (u : State) :
      (l.foldl (fun t p => t.send p (.endRefused .aborted)) u).governor = u.governor ∧
      (l.foldl (fun t p => t.send p (.endRefused .aborted)) u).backlog = u.backlog := by
    simp
  unfold State.holdUpExpiry
  split
  · exact .refl s
  · refine (FollowsBacklog.judgeBacklog ?_ none).then_governor_backlog (hsend _ _)
    exact foldl_governor State.expirePort_governor _ _

end Sys2Proof.Machine
end

section
/-! PROOFS. The rules of the requests: each has its backlog judged, or moves neither the backlog nor the effective
backlog (R135). -/

namespace Sys2Proof.Machine

open State (FollowsBacklog)

/-- R135: carried out, the request has its backlog judged. -/
def RequestRule.Follows (rule : RequestRule) : Prop :=
  ∀ (body : List Byte) (s : State), s.FollowsBacklog (rule body s).1

theorem withRecord_follows {s : State} {act : Slot → DepositRecord → State × Reply} (ref : Reference)
    (h : ∀ i r, s.FollowsBacklog (act i r).1) : s.FollowsBacklog (withRecord s ref act).1 := by
  unfold withRecord
  repeat' split
  case h_2 => exact h _ _
  all_goals exact .refl s

theorem declareRule_follows : RequestRule.Follows declareRule := fun body s => by
  unfold declareRule
  dsimp only
  repeat' split
  all_goals exact .of_still rfl rfl

theorem amendRule_follows : RequestRule.Follows amendRule := fun body s => by
  unfold amendRule
  dsimp only
  repeat' split
  all_goals exact .of_still rfl rfl

theorem cancelRule_follows : RequestRule.Follows cancelRule := fun body s => by
  unfold cancelRule
  split
  · exact .refl s
  · refine withRecord_follows _ fun i r => ?_
    split <;> exact .of_still rfl rfl

theorem lookUpRule_follows : RequestRule.Follows lookUpRule := fun body s => by
  unfold lookUpRule
  split
  · exact .refl s
  · split
    · exact withRecord_follows _ fun i r => .refl s
    · repeat' split
      all_goals exact .refl s

theorem listRule_follows : RequestRule.Follows listRule := fun body s => by
  unfold listRule
  repeat' split
  all_goals exact .refl s

/-- R124, R135: the record's result moves no list, and the short close is judged. -/
theorem settleRule_follows : RequestRule.Follows settleRule := fun body s => by
  unfold settleRule
  split
  · exact .refl s
  · split
    · exact .refl s
    · refine withRecord_follows _ fun i r => ?_
      repeat' split
      case isFalse.isFalse =>
        dsimp only [accept]
        refine .judgeBacklog ?_ none
        rw [State.shortClose_governor]
        rfl
      all_goals exact .refl s

theorem holdRule_follows : RequestRule.Follows holdRule := fun body s => by
  unfold holdRule
  split
  · exact .refl s
  · refine withRecord_follows _ fun i r => ?_
    split
    · exact .refl s
    · exact .of_governor_backlog (State.holdRecord_governor_backlog s true i .host)

theorem releaseRule_follows : RequestRule.Follows releaseRule := fun body s => by
  unfold releaseRule
  split
  · exact .refl s
  · refine withRecord_follows _ fun i r => ?_
    split
    · exact .of_governor_backlog (by simp [accept])
    · exact .refl s

theorem sealRule_follows : RequestRule.Follows sealRule := fun body s => by
  unfold sealRule
  split
  · exact .refl s
  · split
    · exact .refl s
    · refine withRecord_follows _ fun i r => ?_
      split <;> exact .of_still rfl rfl

theorem retireRule_follows : RequestRule.Follows retireRule := fun body s => by
  unfold retireRule
  split
  · exact .refl s
  · refine withRecord_follows _ fun i r => ?_
    repeat' split
    all_goals exact .of_still rfl rfl

/-- R131, R135: the head leaves and bundles are promoted, and what they leave is judged. -/
theorem takeBundleRule_follows : RequestRule.Follows takeBundleRule := fun body s => by
  have hcollect (t : State) (c : Contribution) : (t.collect c).governor = t.governor :=
    (State.modRecord_governor_backlog t c.slot _).1
  unfold takeBundleRule
  repeat' split
  case h_3 =>
    dsimp only [accept, State.takeHead]
    refine .judged ?_
    rw [State.promote_governor, foldl_governor hcollect]
    rfl
  all_goals exact .refl s

theorem lookBundleRule_follows : RequestRule.Follows lookBundleRule := fun body s => by
  unfold lookBundleRule
  repeat' split
  all_goals exact .refl s

theorem flushPooledRule_follows : RequestRule.Follows flushPooledRule := fun body s => by
  unfold flushPooledRule
  repeat' split
  case isFalse =>
    dsimp only [accept]
    exact .judgeBacklog (State.shortClose_governor s _) none
  all_goals exact .refl s

theorem setDenominationRule_follows : RequestRule.Follows setDenominationRule := fun body s => by
  unfold setDenominationRule
  repeat' split
  all_goals exact .of_still rfl rfl

theorem State.expireIdle_governor_backlog (s : State) :
    s.expireIdle.governor = s.governor ∧ s.expireIdle.backlog = s.backlog := by
  have hexpire (t : State) (i : Slot) :
      (if t.idleDue i then t.holdRecord true i .idle else t).governor = t.governor ∧
      (if t.idleDue i then t.holdRecord true i .idle else t).backlog = t.backlog := by
    split <;> simp
  simp [State.expireIdle, hexpire]

theorem State.retestThresholds_governor_backlog (s : State) :
    s.retestThresholds.governor = s.governor ∧ s.retestThresholds.backlog = s.backlog := by
  simp [State.retestThresholds]

/-- R9: the limits move no bundle, and H is none of them. -/
theorem State.writeLimits_governor_backlog (s : State) (l : Limits) :
    (s.writeLimits l).governor = s.governor ∧ (s.writeLimits l).backlog = s.backlog := by
  simp only [State.writeLimits, State.retestThresholds_governor_backlog, State.expireIdle_governor_backlog]
  exact ⟨rfl, rfl⟩

theorem setLimitsRule_follows : RequestRule.Follows setLimitsRule := fun body s => by
  unfold setLimitsRule
  split
  · exact .refl s
  · split
    · exact .refl s
    · dsimp only [accept]
      exact .of_governor_backlog (State.writeLimits_governor_backlog s _)

/-- R137: a new pace leaves the effective backlog and the backlog. -/
theorem State.repace_governor_backlog (s : State) (unsaid : Option PortId) :
    (s.repace unsaid).governor = s.governor ∧ (s.repace unsaid).backlog = s.backlog := by
  rw [State.repace_eq]
  split <;> exact ⟨rfl, rfl⟩

/-- R10: a new H is for the events to come; this one changes no backlog and judges none. -/
theorem setPaceCurveRule_follows : RequestRule.Follows setPaceCurveRule := fun body s => by
  unfold setPaceCurveRule
  split
  · exact .refl s
  · split
    · exact .refl s
    · dsimp only [accept]
      refine FollowsBacklog.then_governor_backlog ?_ (State.repace_governor_backlog _ none)
      exact .of_still rfl rfl

theorem readConfigurationRule_follows : RequestRule.Follows readConfigurationRule := fun body s => by
  unfold readConfigurationRule
  repeat' split
  all_goals exact .refl s

theorem commitConfigurationRule_follows : RequestRule.Follows commitConfigurationRule := fun body s => by
  unfold commitConfigurationRule
  repeat' split
  all_goals exact .of_still rfl rfl

/-- R17: the defaults move no bundle, and their H is for the events to come. -/
theorem initializeStoreRule_follows : RequestRule.Follows initializeStoreRule := fun body s => by
  unfold initializeStoreRule
  split
  · exact .refl s
  · split
    · exact .refl s
    · dsimp only [accept, State.initializeStore]
      refine FollowsBacklog.then_governor_backlog ?_ (State.repace_governor_backlog _ none)
      refine FollowsBacklog.then_governor_backlog ?_ (State.retestThresholds_governor_backlog _)
      exact .of_still rfl rfl

theorem readStatusRule_follows : RequestRule.Follows readStatusRule := fun body s => by
  unfold readStatusRule
  split <;> exact .refl s

theorem clearCausesRule_follows : RequestRule.Follows clearCausesRule := fun body s => by
  unfold clearCausesRule
  repeat' split
  all_goals exact .of_still rfl rfl

theorem releaseTransportRule_follows : RequestRule.Follows releaseTransportRule := fun body s => by
  unfold releaseTransportRule
  dsimp only
  repeat' split
  all_goals exact .of_still rfl rfl

end Sys2Proof.Machine
end

section
/-! PROOFS. The governor judges the backlog once in every command (R135). -/

namespace Sys2Proof.Machine

/-! ### Requests -/

/-- R135: a command that answers a next state has its backlog judged. -/
def State.OutcomeFollows (s : State) (o : Host.Outcome State Fault Refusal) : Prop :=
  ∀ t, o = .next t → s.FollowsBacklog t

theorem State.OutcomeFollows.next {s t : State} (h : s.FollowsBacklog t) : s.OutcomeFollows (.next t) := by
  rintro _ ⟨⟩
  exact h

/-- An event that only a part that runs takes. -/
theorem State.OutcomeFollows.whenRunning {s : State} {event : State → State} (h : s.FollowsBacklog (event s)) :
    s.OutcomeFollows (.next (s.whenRunning event)) :=
  .next (.whenRunning h)

/-- R170, R171: a frame reaches the link alone. -/
theorem State.takeFrame_governor_backlog (s : State) (frame : List Byte) :
    (s.takeFrame frame).governor = s.governor ∧ (s.takeFrame frame).backlog = s.backlog := by
  unfold State.takeFrame State.pollLink
  repeat' split
  all_goals exact ⟨rfl, rfl⟩

theorem State.carryOut_follows {rule : RequestRule} (h : rule.Follows) (s : State) (r : Request) (overrun : Bool) :
    s.FollowsBacklog (s.carryOut rule r overrun) :=
  (h r.body s).then_still rfl rfl

/-- Log 2: a request command is the request's event, its frame, or the one behind the other. -/
theorem execRequest_follows {rule : RequestRule} (h : rule.Follows) (code : Byte) (body : List Byte) (s : State) :
    s.OutcomeFollows (execRequest code rule body s) := by
  have hframe := s.takeFrame_governor_backlog (requestBytes code body)
  refine .whenRunning ?_
  unfold State.request
  split
  · split
    · exact State.carryOut_follows h s _ _
    · exact .of_governor_backlog hframe
  all_goals
    dsimp only
    split
    · exact .after_still hframe (State.carryOut_follows h _ _ _)
    all_goals exact .of_governor_backlog hframe

/-! ### The link, the transports and the inputs -/

theorem execPoll_follows (clocked : Nat) (s : State) : s.OutcomeFollows (execPoll clocked s) := by
  refine .whenRunning ?_
  unfold State.pollLink
  split <;> exact .of_still rfl rfl

theorem execRequestFrame_follows (frame : List Byte) (s : State) : s.OutcomeFollows (execRequestFrame frame s) :=
  .whenRunning (.of_governor_backlog (s.takeFrame_governor_backlog frame))

theorem execHello_follows (p : PortId) (presence : Byte) (s : State) : s.OutcomeFollows (execHello p presence s) :=
  .whenRunning (s.hello_follows p presence)

theorem execFeedStart_follows (p : PortId) (ref : Reference) (s : State) : s.OutcomeFollows (execFeedStart p ref s) :=
  .whenRunning (.of_governor_backlog (s.feedStart_governor_backlog p ref))

theorem execNoteReport_follows (p : PortId) (seq index fitness verdict : Byte) (s : State) :
    s.OutcomeFollows (execNoteReport p seq index fitness verdict s) :=
  .whenRunning (.judged (s.noteReport_governor p seq index fitness verdict))

theorem execStacked_follows (p : PortId) (seq pocket : Byte) (s : State) :
    s.OutcomeFollows (execStacked p seq pocket s) :=
  .whenRunning (s.stackedMessage_follows p seq pocket)

theorem execJam_follows (p : PortId) (s : State) : s.OutcomeFollows (execJam p s) :=
  .whenRunning (.judged (s.takeJam_governor false none p))

theorem execJamCleared_follows (p : PortId) (s : State) : s.OutcomeFollows (execJamCleared p s) :=
  .whenRunning (.judged (s.jamCleared_governor p))

theorem execFeedEnd_follows (p : PortId) (count : BitVec 16) (s : State) : s.OutcomeFollows (execFeedEnd p count s) :=
  .whenRunning (.of_governor_backlog (s.feedEnd_governor_backlog p count.toNat))

theorem execPocketCleared_follows (p : PortId) (pocket : Byte) (s : State) :
    s.OutcomeFollows (execPocketCleared p pocket s) :=
  .whenRunning (.judged (s.pocketCleared_governor p pocket))

theorem execDiscard_follows (p : PortId) (s : State) : s.OutcomeFollows (execDiscard p s) :=
  .whenRunning (.judged (s.discardMessage_governor p))

/-- R49, log 6: a discarded message is a discard, or the message that it spells. -/
theorem execDiscardedMessage_follows (p : PortId) (type : Byte) (body : List Byte) (lineError : Bool) (s : State) :
    s.OutcomeFollows (execDiscardedMessage p type body lineError s) := by
  unfold execDiscardedMessage
  split
  · exact execDiscard_follows p s
  · split
    · exact execHello_follows _ _ s
    · exact execFeedStart_follows _ _ s
    · exact execNoteReport_follows _ _ _ _ _ s
    · exact execStacked_follows _ _ _ s
    · exact execJam_follows _ s
    · exact execJamCleared_follows _ s
    · exact execFeedEnd_follows _ _ s
    · exact execPocketCleared_follows _ _ s
    · exact execDiscard_follows p s

theorem exec_follows {c : Instr} (hstart : ∀ cause, c ≠ .startUp cause) (hreset : c ≠ .resetLineAsserted)
    (hfailure : c ≠ .powerFailure) (s : State) : s.OutcomeFollows (exec c s) := by
  cases c with
  | declare body => exact execRequest_follows declareRule_follows _ body s
  | amend body => exact execRequest_follows amendRule_follows _ body s
  | cancel body => exact execRequest_follows cancelRule_follows _ body s
  | lookUp body => exact execRequest_follows lookUpRule_follows _ body s
  | list body => exact execRequest_follows listRule_follows _ body s
  | settle body => exact execRequest_follows settleRule_follows _ body s
  | hold body => exact execRequest_follows holdRule_follows _ body s
  | release body => exact execRequest_follows releaseRule_follows _ body s
  | sealRecord body => exact execRequest_follows sealRule_follows _ body s
  | retire body => exact execRequest_follows retireRule_follows _ body s
  | takeBundle body => exact execRequest_follows takeBundleRule_follows _ body s
  | lookBundle body => exact execRequest_follows lookBundleRule_follows _ body s
  | flushPooled body => exact execRequest_follows flushPooledRule_follows _ body s
  | setDenomination body => exact execRequest_follows setDenominationRule_follows _ body s
  | setLimits body => exact execRequest_follows setLimitsRule_follows _ body s
  | setPaceCurve body => exact execRequest_follows setPaceCurveRule_follows _ body s
  | readConfiguration body => exact execRequest_follows readConfigurationRule_follows _ body s
  | commitConfiguration body => exact execRequest_follows commitConfigurationRule_follows _ body s
  | initializeStore body => exact execRequest_follows initializeStoreRule_follows _ body s
  | readStatus body => exact execRequest_follows readStatusRule_follows _ body s
  | clearCauses body => exact execRequest_follows clearCausesRule_follows _ body s
  | releaseTransport body => exact execRequest_follows releaseTransportRule_follows _ body s
  | poll clocked => exact execPoll_follows clocked s
  | requestFrame frame => exact execRequestFrame_follows frame s
  | hello p presence => exact execHello_follows p presence s
  | feedStart p ref => exact execFeedStart_follows p ref s
  | noteReport p seq index fitness verdict => exact execNoteReport_follows p seq index fitness verdict s
  | stacked p seq pocket => exact execStacked_follows p seq pocket s
  | jam p => exact execJam_follows p s
  | jamCleared p => exact execJamCleared_follows p s
  | feedEnd p count => exact execFeedEnd_follows p count s
  | pocketCleared p pocket => exact execPocketCleared_follows p pocket s
  | discardedMessage p type body lineError => exact execDiscardedMessage_follows p type body lineError s
  | flightExpiry p seq => exact .whenRunning (.judged (s.flightExpiry_governor p seq))
  | idleExpiry i => exact .whenRunning (.of_governor_backlog (s.idleExpiry_governor_backlog i))
  | holdUpExpiry => exact .whenRunning s.holdUpExpiry_follows
  | powerWarningAsserted => exact .next (.of_governor_backlog s.assertWarning_governor_backlog)
  | powerWarningDeasserted => exact .next (.of_governor_backlog s.deassertWarning_governor_backlog)
  | resetLineAsserted => exact absurd rfl hreset
  | powerFailure => exact absurd rfl hfailure
  | startUp cause => exact absurd rfl (hstart cause)

/-- Settles O31: every event but those that restart or stop the part leaves e and H to the one judging of its
backlog, or moves neither e nor the backlog. -/
theorem governorJudgesEveryEvent : Obligations.GovernorJudgesEveryEvent := by
  intro c s t hexec hstart hreset hfailure
  exact exec_follows hstart hreset hfailure s t hexec

end Sys2Proof.Machine
end

section
/-! PROOFS. The figures of a settlement (R143 to R148). -/

namespace Sys2Proof.Machine

/-! ### The two values (R143, R144) -/

/-- Twelve products of a cell's notes and a face value, with bounds for both. -/
theorem sum_cells_mul_face_le {notes face : DenomIndex → Nat} {m f : Nat} (hnotes : ∀ j, notes j ≤ m)
    (hface : ∀ j, face j ≤ f) : ∑ j, notes j * face j ≤ 12 * (m * f) :=
  Finset.sum_le_card_nsmul Finset.univ _ _ fun j _ => Nat.mul_le_mul (hnotes j) (hface j)

namespace DepositRecord

theorem countedValue_eq_sum (r : DepositRecord) (face : DenomIndex → Nat) :
    r.countedValue face = ∑ j : DenomIndex, (r.cells[j.val].fit + r.cells[j.val].unfit) * face j :=
  (Fin.sum_univ_def _).symm

theorem suspectValue_eq_sum (r : DepositRecord) (face : DenomIndex → Nat) :
    r.suspectValue face = ∑ j : DenomIndex, r.cells[j.val].suspect * face j :=
  (Fin.sum_univ_def _).symm

/-- R148: the SUSPECT cells one by one. -/
theorem suspectTotal_eq_sum (r : DepositRecord) :
    r.suspectTotal = ∑ j : DenomIndex, r.cells[j.val].suspect := by
  have hcells : r.cells.toList = List.ofFn fun j : DenomIndex => r.cells[j.val] :=
    List.ext_getElem (by simp) fun i _ _ => by rw [Vector.getElem_toList, List.getElem_ofFn]
  rw [suspectTotal, hcells, List.map_ofFn, List.sum_ofFn]
  rfl

/-- R143: the largest counted value. -/
theorem countedValue_le {r : DepositRecord} {face : DenomIndex → Nat} (hface : ∀ j, face j ≤ 100000000)
    (hfit : ∀ j : DenomIndex, r.cells[j.val].fit ≤ 65535) (hunfit : ∀ j : DenomIndex, r.cells[j.val].unfit ≤ 65535) :
    r.countedValue face ≤ 157284000000000 := by
  rw [countedValue_eq_sum]
  exact sum_cells_mul_face_le (fun j => Nat.add_le_add (hfit j) (hunfit j)) hface

/-- R144: the largest suspect value. -/
theorem suspectValue_le {r : DepositRecord} {face : DenomIndex → Nat} (hface : ∀ j, face j ≤ 100000000)
    (hsuspect : ∀ j : DenomIndex, r.cells[j.val].suspect ≤ 65535) : r.suspectValue face ≤ 78642000000000 := by
  rw [suspectValue_eq_sum]
  exact sum_cells_mul_face_le hsuspect hface

end DepositRecord

/-! ### The declared counts (R142) -/

theorem declaredCount_cons_self (e : BreakdownEntry) (l : List BreakdownEntry) :
    declaredCount (e :: l) e.index = e.count := by
  simp [declaredCount]

theorem declaredCount_cons_of_ne {e : BreakdownEntry} {j : DenomIndex} (h : e.index ≠ j) (l : List BreakdownEntry) :
    declaredCount (e :: l) j = declaredCount l j := by
  simp [declaredCount, h]

/-- R142: in a breakdown that names no index twice, n_j is all that its entries of index j count. -/
theorem declaredCount_eq_sum {l : List BreakdownEntry} (hl : l.Pairwise fun a b => a.index ≠ b.index)
    (j : DenomIndex) : declaredCount l j = ((l.filter fun e => e.index = j).map fun e => e.count).sum := by
  induction hl with
  | nil => rfl
  | @cons e l hne _ ih =>
    by_cases h : e.index = j
    · subst h
      have hrest : (l.filter fun e' => e'.index = e.index) = [] := by
        simpa using fun e' he' => (hne e' he').symm
      simp [declaredCount_cons_self, hrest]
    · rw [declaredCount_cons_of_ne h, ih]
      simp [h]

/-- R142: a declared count is the count of an entry, or 0. -/
theorem declaredCount_le {l : List BreakdownEntry} {m : Nat} (hl : ∀ e ∈ l, e.count ≤ m) (j : DenomIndex) :
    declaredCount l j ≤ m := by
  unfold declaredCount
  split
  next e he => exact hl e (List.mem_of_find?_eq_some he)
  next => exact Nat.zero_le m

/-! ### The mismatch list (R146) -/

namespace DepositRecord

/-- R146: the count difference, from the entries of the breakdown. -/
theorem countDifference_eq {r : DepositRecord} (hl : r.breakdown.Pairwise fun a b => a.index ≠ b.index)
    (j : DenomIndex) :
    r.countDifference j = (r.cells[j.val].fit + r.cells[j.val].unfit : Int) -
      ((r.breakdown.filter fun e => e.index = j).map fun e => e.count).sum := by
  rw [countDifference, declaredCount_eq_sum hl, Nat.cast_add]

theorem countDifference_bounds {r : DepositRecord} {j : DenomIndex} (hfit : r.cells[j.val].fit ≤ 65535)
    (hunfit : r.cells[j.val].unfit ≤ 65535) (hl : ∀ e ∈ r.breakdown, e.count ≤ 65535) :
    -65535 ≤ r.countDifference j ∧ r.countDifference j ≤ 131070 := by
  have hdeclared := declaredCount_le hl j
  unfold countDifference
  omega

/-- R146: the entry of an index, absent where the counts agree. -/
def mismatchAt (r : DepositRecord) (j : DenomIndex) : Option Mismatch :=
  if r.countDifference j = 0 then none else some { index := j, difference := r.countDifference j }

theorem mismatchAt_eq_some {r : DepositRecord} {j : DenomIndex} {m : Mismatch} :
    r.mismatchAt j = some m ↔ r.countDifference j ≠ 0 ∧ m = { index := j, difference := r.countDifference j } := by
  simp [mismatchAt, eq_comm]

theorem mismatchList_eq_none {r : DepositRecord} : r.mismatchList = none ↔ r.breakdown = [] := by
  simp [mismatchList]

theorem mismatchList_eq_some {r : DepositRecord} {l : List Mismatch} (h : r.mismatchList = some l) :
    l = (List.finRange 12).filterMap r.mismatchAt := by
  unfold mismatchList at h
  split at h
  next => cases h
  next => exact (Option.some.inj h).symm

/-- R146: a list that is held has the indexes in ascending order. -/
theorem mismatchList_pairwise {r : DepositRecord} {l : List Mismatch} (h : r.mismatchList = some l) :
    l.Pairwise fun a b => a.index.val < b.index.val := by
  rw [mismatchList_eq_some h]
  refine (List.pairwise_lt_finRange 12).filterMap _ fun i j hlt a ha b hb => ?_
  obtain ⟨-, rfl⟩ := mismatchAt_eq_some.1 ha
  obtain ⟨-, rfl⟩ := mismatchAt_eq_some.1 hb
  exact hlt

/-- R146: a list that is held names exactly the indexes whose counts differ. -/
theorem mem_mismatchList {r : DepositRecord} {l : List Mismatch} (h : r.mismatchList = some l) (j : DenomIndex)
    (x : Int) : { index := j, difference := x } ∈ l ↔ x = r.countDifference j ∧ x ≠ 0 := by
  simp only [mismatchList_eq_some h, List.mem_filterMap, List.mem_finRange, true_and, mismatchAt_eq_some,
    Mismatch.mk.injEq]
  constructor
  · rintro ⟨_, hne, rfl, rfl⟩
    exact ⟨rfl, hne⟩
  · rintro ⟨rfl, hne⟩
    exact ⟨j, hne, rfl, rfl⟩

end DepositRecord

/-! ### The outcome (R147) -/

/-- R147: a list without an entry counts as no list. -/
theorem outcomeOf_eq (difference : Int) (mismatches : Option (List Mismatch)) (suspect : Nat) :
    outcomeOf difference (mismatches.any fun l => !l.isEmpty) suspect =
      if difference = 0 ∧ (mismatches = none ∨ mismatches = some []) then .exact
      else if difference = 0 then .mixed
      else if 0 < difference then .over
      else if difference + suspect = 0 then .shortBySuspect
      else .short := by
  by_cases h : difference = 0
  · rcases mismatches with - | - | - <;> simp [outcomeOf, h]
  · simp [outcomeOf, h]

/-! ### The result (R145 to R148) -/

/-- R145: with C at most 157,284,000,000,000 and D below 2^48, the difference has its bounds. -/
theorem difference_bounds {counted declared : Nat} (hcounted : counted ≤ 157284000000000)
    (hdeclared : declared < 2 ^ 48) :
    -281474976710655 ≤ (counted : Int) - declared ∧ (counted : Int) - declared ≤ 157284000000000 := by
  omega

theorem DepositRecord.settlement_suspectMark_iff {r : DepositRecord} {face : DenomIndex → Nat} :
    (r.settlement face).suspectMark = true ↔
      0 < (∑ j : DenomIndex, r.cells[j.val].suspect) + r.unrecognized := by
  simp [settlement, suspectTotal_eq_sum, Nat.pos_iff_ne_zero]

/-- Settles O27, figure by figure: the sums and their bounds, the difference, the mismatch list against the entries of
the breakdown, the outcome and the mark. -/
theorem settlementFollowsTheFigures : Obligations.SettlementFollowsTheFigures := by
  intro r face hrange hindexes hcounts htotal t declared difference
  simp only [forall_and] at hrange
  obtain ⟨hface, hfit, hunfit, hsuspect⟩ := hrange
  have hcounted : t.counted ≤ 157284000000000 := DepositRecord.countedValue_le hface hfit hunfit
  have hdifference (j : DenomIndex) : r.countDifference j = difference j := DepositRecord.countDifference_eq hindexes j
  obtain ⟨hlow, hhigh⟩ := difference_bounds hcounted htotal
  refine ⟨r.countedValue_eq_sum face, hcounted, r.suspectValue_eq_sum face,
    DepositRecord.suspectValue_le hface hsuspect, rfl, hlow, hhigh,
    DepositRecord.mismatchList_eq_none, fun l hl => ⟨DepositRecord.mismatchList_pairwise hl, fun j x => ?_⟩,
    fun j => ?_, outcomeOf_eq _ _ _, DepositRecord.settlement_suspectMark_iff⟩
  · rw [← hdifference]
    exact DepositRecord.mem_mismatchList hl j x
  · rw [← hdifference]
    exact DepositRecord.countDifference_bounds (hfit j) (hunfit j) hcounts

end Sys2Proof.Machine
end

section
/-! PROOFS. The Attention output (R176): what each of its tests says, and the output as the five conditions. -/

namespace Sys2Proof.Machine

/-- The lists that the tests of R176 walk are those of every slot and of every port. -/
theorem exists_mem_toList_iff {α : Type} {n : Nat} (v : Vector α n) (P : α → Prop) :
    (∃ x ∈ v.toList, P x) ↔ ∃ i : Fin n, P v[i.val] := by
  rw [List.exists_mem_iff_getElem, Fin.exists_iff]
  simp only [Vector.length_toList, Vector.getElem_toList]

namespace State

theorem headCollectable_iff (s : State) : s.headCollectable = true ↔ ∃ b rest, s.queue = .lifted b :: rest := by
  unfold headCollectable
  split
  next b rest hq => exact ⟨fun _ => ⟨b, rest, hq⟩, fun _ => rfl⟩
  next hne => exact ⟨nofun, fun ⟨b, rest, hq⟩ => absurd hq (hne b rest)⟩

theorem heldCount_ne_zero_iff (s : State) : s.heldCount ≠ 0 ↔ ∃ i r, s.record? i = some r ∧ r.state = .held := by
  rw [heldCount, ← Nat.pos_iff_ne_zero, List.length_pos_iff_exists_mem]
  simp only [List.mem_filter]
  rw [exists_mem_toList_iff]
  refine exists_congr fun i => ?_
  change _ ↔ ∃ r, s.records[i.val] = some r ∧ r.state = .held
  cases s.records[i.val] <;> simp

theorem anyLocked_iff (s : State) : s.anyLocked = true ↔ ∃ p cause, (s.port p).state = .locked cause := by
  rw [anyLocked, List.any_eq_true, exists_mem_toList_iff]
  refine exists_congr fun p => ?_
  change _ ↔ ∃ cause, s.ports[p.val].state = .locked cause
  cases s.ports[p.val].state <;> simp

theorem running_eq_false_of_resetLine {s : State} (h : s.resetLine = true) : s.running = false := by
  simp [running, h]

theorem attention_of_not_running {s : State} (h : s.running = false) : s.attention = false := by
  simp [attention, h]

/-- R176 on a running part: the output is the OR of its five tests. -/
theorem attention_of_running {s : State} (h : s.running = true) : s.attention = true ↔
    s.headCollectable = true ∨ s.heldCount ≠ 0 ∨ s.anyLocked = true ∨ s.configFault = true ∨ s.warning = true := by
  simp [attention, h, or_assoc]

end State

/-- Settles O36: a part whose reset line is asserted does not run, and on a running one each test of the output is
its condition. -/
theorem attentionFollowsItsConditions : Obligations.AttentionFollowsItsConditions := by
  intro s
  refine ⟨fun hline => State.attention_of_not_running (State.running_eq_false_of_resetLine hline), fun hrun => ?_⟩
  rw [State.attention_of_running hrun, State.headCollectable_iff, State.heldCount_ne_zero_iff, State.anyLocked_iff]

end Sys2Proof.Machine
end
